-- ==== Sys2Proof/Word.lean ====
section
/-! DEFINITION. The two word types of the machine (00_scope.md R6, R9): `u8` and `u16`. -/

namespace Sys2Proof

/-- `u8` (R9): an 8-bit register or memory byte; arithmetic wraps at 0x100. -/
abbrev Byte := BitVec 8

/-- `u16` (R9): a 16-bit address or program counter; arithmetic wraps at 0x10000. -/
abbrev Word := BitVec 16

end Sys2Proof
end

