-- ==== Sys2Proof/Syntax.lean ====
section
/-! DEFINITION. The instruction set as syntax: one constructor of `Instr` per row of spec/opcode_table.json, 151 documented
and 105 undocumented (30_encoding.md R124, R125). An operand is a `Byte` or a `Word` as its mode says (R122): an immediate
`v`, a zero-page address or pointer `p`, a branch displacement `d`, an absolute address `addr`, an indexed base `base`, an
indirect pointer `ptr`. Beside it the two coordinates of the opcode map, `Operation` and `Mode` (R121), and the assembler
statement of R127. -/

namespace Sys2Proof

/-- The thirteen addressing modes (30_encoding.md R122): `impl A # zp zp,X zp,Y abs abs,X abs,Y (zp,X) (zp),Y (abs) rel`. -/
inductive Mode where
  | imp | acc | imm | zp | zpx | zpy | abs | abx | aby | izx | izy | ind | rel
  deriving DecidableEq, Repr

/-- The operations of the opcode map (30_encoding.md R124). `ill` is the undocumented marker (R121, R125). -/
inductive Operation where
  | adc | and | asl | bcc | bcs | beq | bit | bmi | bne | bpl | brk | bvc | bvs | clc | cld | cli | clv 
  | cmp | cpx | cpy | dec | dex | dey | eor | inc | inx | iny | jmp | jsr | lda | ldx | ldy | lsr | nop 
  | ora | pha | php | pla | plp | rol | ror | rti | rts | sbc | sec | sed | sei | sta | stx | sty | tax 
  | tay | tsx | txa | txs | tya
  | ill
  deriving DecidableEq, Repr

/-- An instruction with its operand. Every well-typed term is an instruction of R124: a mode an operation lacks has no
constructor, and an operand is exactly as wide as its field. `illXX` is the undocumented byte 0xXX. The documented
constructors stand first: Lean's compiler numbers constructors that carry data only up to 243. -/
inductive Instr where
  | brk
  | oraIzx (p : Byte)
  | oraZp (p : Byte)
  | aslZp (p : Byte)
  | php
  | oraImm (v : Byte)
  | aslAcc
  | oraAbs (addr : Word)
  | aslAbs (addr : Word)
  | bpl (d : Byte)
  | oraIzy (p : Byte)
  | oraZpx (p : Byte)
  | aslZpx (p : Byte)
  | clc
  | oraAby (base : Word)
  | oraAbx (base : Word)
  | aslAbx (base : Word)
  | jsr (addr : Word)
  | andIzx (p : Byte)
  | bitZp (p : Byte)
  | andZp (p : Byte)
  | rolZp (p : Byte)
  | plp
  | andImm (v : Byte)
  | rolAcc
  | bitAbs (addr : Word)
  | andAbs (addr : Word)
  | rolAbs (addr : Word)
  | bmi (d : Byte)
  | andIzy (p : Byte)
  | andZpx (p : Byte)
  | rolZpx (p : Byte)
  | sec
  | andAby (base : Word)
  | andAbx (base : Word)
  | rolAbx (base : Word)
  | rti
  | eorIzx (p : Byte)
  | eorZp (p : Byte)
  | lsrZp (p : Byte)
  | pha
  | eorImm (v : Byte)
  | lsrAcc
  | jmpAbs (addr : Word)
  | eorAbs (addr : Word)
  | lsrAbs (addr : Word)
  | bvc (d : Byte)
  | eorIzy (p : Byte)
  | eorZpx (p : Byte)
  | lsrZpx (p : Byte)
  | cli
  | eorAby (base : Word)
  | eorAbx (base : Word)
  | lsrAbx (base : Word)
  | rts
  | adcIzx (p : Byte)
  | adcZp (p : Byte)
  | rorZp (p : Byte)
  | pla
  | adcImm (v : Byte)
  | rorAcc
  | jmpInd (ptr : Word)
  | adcAbs (addr : Word)
  | rorAbs (addr : Word)
  | bvs (d : Byte)
  | adcIzy (p : Byte)
  | adcZpx (p : Byte)
  | rorZpx (p : Byte)
  | sei
  | adcAby (base : Word)
  | adcAbx (base : Word)
  | rorAbx (base : Word)
  | staIzx (p : Byte)
  | styZp (p : Byte)
  | staZp (p : Byte)
  | stxZp (p : Byte)
  | dey
  | txa
  | styAbs (addr : Word)
  | staAbs (addr : Word)
  | stxAbs (addr : Word)
  | bcc (d : Byte)
  | staIzy (p : Byte)
  | styZpx (p : Byte)
  | staZpx (p : Byte)
  | stxZpy (p : Byte)
  | tya
  | staAby (base : Word)
  | txs
  | staAbx (base : Word)
  | ldyImm (v : Byte)
  | ldaIzx (p : Byte)
  | ldxImm (v : Byte)
  | ldyZp (p : Byte)
  | ldaZp (p : Byte)
  | ldxZp (p : Byte)
  | tay
  | ldaImm (v : Byte)
  | tax
  | ldyAbs (addr : Word)
  | ldaAbs (addr : Word)
  | ldxAbs (addr : Word)
  | bcs (d : Byte)
  | ldaIzy (p : Byte)
  | ldyZpx (p : Byte)
  | ldaZpx (p : Byte)
  | ldxZpy (p : Byte)
  | clv
  | ldaAby (base : Word)
  | tsx
  | ldyAbx (base : Word)
  | ldaAbx (base : Word)
  | ldxAby (base : Word)
  | cpyImm (v : Byte)
  | cmpIzx (p : Byte)
  | cpyZp (p : Byte)
  | cmpZp (p : Byte)
  | decZp (p : Byte)
  | iny
  | cmpImm (v : Byte)
  | dex
  | cpyAbs (addr : Word)
  | cmpAbs (addr : Word)
  | decAbs (addr : Word)
  | bne (d : Byte)
  | cmpIzy (p : Byte)
  | cmpZpx (p : Byte)
  | decZpx (p : Byte)
  | cld
  | cmpAby (base : Word)
  | cmpAbx (base : Word)
  | decAbx (base : Word)
  | cpxImm (v : Byte)
  | sbcIzx (p : Byte)
  | cpxZp (p : Byte)
  | sbcZp (p : Byte)
  | incZp (p : Byte)
  | inx
  | sbcImm (v : Byte)
  | nop
  | cpxAbs (addr : Word)
  | sbcAbs (addr : Word)
  | incAbs (addr : Word)
  | beq (d : Byte)
  | sbcIzy (p : Byte)
  | sbcZpx (p : Byte)
  | incZpx (p : Byte)
  | sed
  | sbcAby (base : Word)
  | sbcAbx (base : Word)
  | incAbx (base : Word)
  | ill02
  | ill03
  | ill04
  | ill07
  | ill0B
  | ill0C
  | ill0F
  | ill12
  | ill13
  | ill14
  | ill17
  | ill1A
  | ill1B
  | ill1C
  | ill1F
  | ill22
  | ill23
  | ill27
  | ill2B
  | ill2F
  | ill32
  | ill33
  | ill34
  | ill37
  | ill3A
  | ill3B
  | ill3C
  | ill3F
  | ill42
  | ill43
  | ill44
  | ill47
  | ill4B
  | ill4F
  | ill52
  | ill53
  | ill54
  | ill57
  | ill5A
  | ill5B
  | ill5C
  | ill5F
  | ill62
  | ill63
  | ill64
  | ill67
  | ill6B
  | ill6F
  | ill72
  | ill73
  | ill74
  | ill77
  | ill7A
  | ill7B
  | ill7C
  | ill7F
  | ill80
  | ill82
  | ill83
  | ill87
  | ill89
  | ill8B
  | ill8F
  | ill92
  | ill93
  | ill97
  | ill9B
  | ill9C
  | ill9E
  | ill9F
  | illA3
  | illA7
  | illAB
  | illAF
  | illB2
  | illB3
  | illB7
  | illBB
  | illBF
  | illC2
  | illC3
  | illC7
  | illCB
  | illCF
  | illD2
  | illD3
  | illD4
  | illD7
  | illDA
  | illDB
  | illDC
  | illDF
  | illE2
  | illE3
  | illE7
  | illEB
  | illEF
  | illF2
  | illF3
  | illF4
  | illF7
  | illFA
  | illFB
  | illFC
  | illFF
  deriving DecidableEq, Repr

/-- One assembler statement (30_encoding.md R127): an operation in a mode with its operand as a number (the
displacement byte for `rel`, 0 where the mode has no operand), or the directive `.byte`. -/
inductive AsmStatement where
  | instr (op : Operation) (mode : Mode) (operand : Nat)
  | byte (v : Nat)
  deriving DecidableEq, Repr

end Sys2Proof
end

