-- ==== Sys2Proof/Machine/Bus.lean ====
section
/-! DEFINITION. The vocabulary of the bus and of the two logs: the soft-switch names (20_memory.md R77), the resolver's answer (R54), the bus event record (R70) and the switch-log entry (10_state.md R32). -/

namespace Sys2Proof.Machine

/-- The sixteen named soft switches, in the order of their indices 0 to 15 (20_memory.md R77). -/
inductive Switch where
  | lcBank1 | lcReadRam | lcWriteRam | lcPrewrite
  | store80 | ramrd | ramwrt | altzp | col80 | altcharset
  | text | mixed | page2 | hires | intcxrom | slotc3rom
  deriving DecidableEq, Repr

/-- What answers an access (20_memory.md R54). -/
inductive BankKind where
  | main | slots | rom | lcBank1 | lcBank2 | lcOther
  deriving DecidableEq, Repr

/-- The resolver's answer `(kind, offset, isAux)` (20_memory.md R54). -/
structure Resolution where
  kind : BankKind
  offset : Nat
  isAux : Bool
  deriving DecidableEq, Repr

/-- PEEK is a read event, POKE a write event (20_memory.md R70). -/
inductive BusKind where
  | peek | poke
  deriving DecidableEq, Repr

/-- `BusEvent(cycle, type, addr, resolution, value, overridden, suppressed)` (20_memory.md R70). -/
structure BusEvent where
  cycle : Nat
  type : BusKind
  addr : Word
  resolution : Resolution
  value : Byte
  overridden : Bool
  suppressed : Bool
  deriving DecidableEq, Repr

/-- One entry `(cycle, flag, newValue)` of `swlog` (10_state.md R32). -/
structure SwitchEntry where
  cycle : Nat
  flag : Switch
  value : Bool
  deriving DecidableEq, Repr

end Sys2Proof.Machine
end

