-- ==== Sys2Proof/Config.lean ====
section
/-! DEFINITION. The configuration parameters of 00_scope.md R7, and the free values: bytes and flags the environment supplies (00_scope.md R8) and nothing in the model constrains. -/

namespace Sys2Proof

/-- `MACHINE` (00_scope.md R7): which soft-switch set exists. -/
inductive MachineModel where
  | iiPlus | iie
  deriving DecidableEq, Repr

/-- `ALTZP_MODE` (00_scope.md R7; 20_memory.md R61; conflict C3). -/
inductive AltzpMode where
  | standard | literal
  deriving DecidableEq, Repr

/-- `STORE80_MODE` (00_scope.md R7; 20_memory.md R64). -/
inductive Store80Mode where
  | or | override
  deriving DecidableEq, Repr

/-- `LC_POWERON` (00_scope.md R7): the power-on values of the four language-card flags. -/
structure LcPowerOn where
  bank1 : Bool
  readRam : Bool
  writeRam : Bool
  prewrite : Bool
  deriving DecidableEq, Repr

/-- An inclusive range of 16-bit addresses. A set of addresses is a list of ranges (log 18). -/
structure AddrRange where
  lo : Word
  hi : Word
  deriving DecidableEq, Repr

/-- The parameters of 00_scope.md R7 that are fixed for a run. `ROM_SIZE` and `AUX_PRESENT` are derived from
these (`Config.romSize`, `Config.auxPresent` in Machine/Resolver.lean) and the `ROM` bytes stand in
`Machine.State.rom` (log 4). -/
structure Config where
  machine : MachineModel
  ramSize : Nat
  lcPresent : Bool
  altzpMode : AltzpMode
  store80Mode : Store80Mode
  lcPowerOn : LcPowerOn
  prestepLimit : Nat
  hooked : List AddrRange
  endPc : Word
  deriving DecidableEq, Repr

/-- FREE VALUE. `ioRead(addr, history)` (00_scope.md R8; 20_memory.md R72): the byte the environment supplies to a
read the block does not decode, when `State.ioDraws` holds no draw. The history is the bus event log (log 2). -/
opaque Config.ioRead : Word → List Machine.BusEvent → Byte

/-- FREE VALUE. `ioSuppress(addr, v, history)` (20_memory.md R69): whether a handler suppresses a write at a
hooked address, when `State.suppressDraws` holds no draw (log 3). -/
opaque Config.ioSuppress : Word → Byte → List Machine.BusEvent → Bool

/-- FREE VALUE. The unspecified byte a sneaky read returns at a SLOTS address (20_memory.md R73; log 16). -/
opaque Config.sneakySlot : Word → List Machine.BusEvent → Byte

end Sys2Proof
end

