-- ==== Sys2Proof/WellFormed.lean ====
section
/-! DEFINITION. Well-formedness checks: of an instruction, of an assembler statement (30_encoding.md R127) and of a launch
configuration (60_exceptions.md R323). -/

namespace Sys2Proof

/-- Every term of `Instr` is well formed: a mode the operation lacks has no constructor, and each operand has exactly the
width of its field (30_encoding.md R120, R122), so the check has nothing left to refuse. -/
def Instr.wf (_ : Instr) : Bool := true

/-- The modes of an operation, from the Encoding lines of the instruction rules (41 to 45) and not from the R124 grid. -/
def Operation.modes : Operation → List Mode
  | .adc => [.imm, .zp, .zpx, .abs, .abx, .aby, .izx, .izy]
  | .and => [.imm, .zp, .zpx, .abs, .abx, .aby, .izx, .izy]
  | .asl => [.acc, .zp, .zpx, .abs, .abx]
  | .bcc => [.rel]
  | .bcs => [.rel]
  | .beq => [.rel]
  | .bit => [.zp, .abs]
  | .bmi => [.rel]
  | .bne => [.rel]
  | .bpl => [.rel]
  | .brk => [.imp]
  | .bvc => [.rel]
  | .bvs => [.rel]
  | .clc => [.imp]
  | .cld => [.imp]
  | .cli => [.imp]
  | .clv => [.imp]
  | .cmp => [.imm, .zp, .zpx, .abs, .abx, .aby, .izx, .izy]
  | .cpx => [.imm, .zp, .abs]
  | .cpy => [.imm, .zp, .abs]
  | .dec => [.zp, .zpx, .abs, .abx]
  | .dex => [.imp]
  | .dey => [.imp]
  | .eor => [.imm, .zp, .zpx, .abs, .abx, .aby, .izx, .izy]
  | .inc => [.zp, .zpx, .abs, .abx]
  | .inx => [.imp]
  | .iny => [.imp]
  | .jmp => [.abs, .ind]
  | .jsr => [.abs]
  | .lda => [.imm, .zp, .zpx, .abs, .abx, .aby, .izx, .izy]
  | .ldx => [.imm, .zp, .zpy, .abs, .aby]
  | .ldy => [.imm, .zp, .zpx, .abs, .abx]
  | .lsr => [.acc, .zp, .zpx, .abs, .abx]
  | .nop => [.imp]
  | .ora => [.imm, .zp, .zpx, .abs, .abx, .aby, .izx, .izy]
  | .pha => [.imp]
  | .php => [.imp]
  | .pla => [.imp]
  | .plp => [.imp]
  | .rol => [.acc, .zp, .zpx, .abs, .abx]
  | .ror => [.acc, .zp, .zpx, .abs, .abx]
  | .rti => [.imp]
  | .rts => [.imp]
  | .sbc => [.imm, .zp, .zpx, .abs, .abx, .aby, .izx, .izy]
  | .sec => [.imp]
  | .sed => [.imp]
  | .sei => [.imp]
  | .sta => [.zp, .zpx, .abs, .abx, .aby, .izx, .izy]
  | .stx => [.zp, .zpy, .abs]
  | .sty => [.zp, .zpx, .abs]
  | .tax => [.imp]
  | .tay => [.imp]
  | .tsx => [.imp]
  | .txa => [.imp]
  | .txs => [.imp]
  | .tya => [.imp]
  | .ill => []

/-- How many operand bytes a mode has (30_encoding.md R120). -/
def Mode.operandBytes : Mode → Nat
  | .imp | .acc => 0
  | .imm | .zp | .zpx | .zpy | .izx | .izy | .rel => 1
  | .abs | .abx | .aby | .ind => 2

/-- An assembler statement is well formed when its operation has that mode and its operand fits the mode's operand bytes;
`.byte` takes one byte (30_encoding.md R127). -/
def AsmStatement.wf : AsmStatement → Bool
  | .instr op mode operand => op.modes.contains mode && decide (operand < 256 ^ mode.operandBytes)
  | .byte v => decide (v < 256)

/-- `RAM_SIZE` is 65536 or 131072 (00_scope.md R7, R323). -/
def Config.ramSizeOk (cfg : Config) : Bool := cfg.ramSize == 65536 || cfg.ramSize == 131072

/-- The ROM image has `ROM_SIZE` bytes: 12288 on `II_PLUS`, 16384 on `IIE` (00_scope.md R7, R323). -/
def Config.romImageOk (cfg : Config) (imageBytes : Nat) : Bool :=
  match cfg.machine with
  | .iiPlus => imageBytes == 12288
  | .iie => imageBytes == 16384

end Sys2Proof
end

