-- ==== Sys2Proof/Decode.lean ====
section
/-! DEFINITION. Bytes and instructions: the byte-order and extension helpers (00_scope.md R9), the opcode map of
30_encoding.md R124 with the cycle counts of 70_reset_and_hazards.md R366, the decoder, and after it the encoder and the
assembler of R127. -/

namespace Sys2Proof

/-- `lo(w) = w[7:0]` (00_scope.md R9). -/
def loByte (w : Word) : Byte := w.extractLsb' 0 8

/-- `hi(w) = w[15:8]` (00_scope.md R9). -/
def hiByte (w : Word) : Byte := w.extractLsb' 8 8

/-- `hi ++ lo` (00_scope.md R9). -/
def wordOf (hi lo : Byte) : Word := hi ++ lo

/-- `zext_16(v)` (00_scope.md R9). -/
def zext16 (v : Byte) : Word := v.setWidth 16

/-- `sext_16(v) = v + (v[7] ? 0xFF00 : 0)` (00_scope.md R9). -/
def sext16 (v : Byte) : Word := v.signExtend 16

/-- The three formats F1_implied, F2_byte and F3_word (30_encoding.md R120): an instruction waiting for its operand bytes. -/
inductive Form where
  | implied (i : Instr)
  | byte (f : Byte → Instr)
  | word (f : Word → Instr)

/-- One cell of the opcode map: the (operation, mode) pair of R121, the instruction, the base cycle count of R366 and
whether a page cross adds a cycle (R366). -/
structure OpcodeRow where
  op : Operation
  mode : Mode
  form : Form
  cycles : Nat
  pageCross : Bool

namespace OpcodeRow

/-- A one-byte row. -/
def one (op : Operation) (mode : Mode) (i : Instr) (cycles : Nat) : OpcodeRow := ⟨op, mode, .implied i, cycles, false⟩

/-- A two-byte row with no page-cross cycle. -/
def two (op : Operation) (mode : Mode) (f : Byte → Instr) (cycles : Nat) : OpcodeRow := ⟨op, mode, .byte f, cycles, false⟩

/-- A three-byte row with no page-cross cycle. -/
def three (op : Operation) (mode : Mode) (f : Word → Instr) (cycles : Nat) : OpcodeRow := ⟨op, mode, .word f, cycles, false⟩

/-- The same row with the page-cross cycle of R366. -/
def crossing (r : OpcodeRow) : OpcodeRow := { r with pageCross := true }

/-- An undocumented byte: one byte, 7 cycles (46_illegal_opcodes.md R300). -/
def undocumented (i : Instr) : OpcodeRow := one .ill .imp i 7

end OpcodeRow

open OpcodeRow

/-- Row 0x of the opcode map (30_encoding.md R124). -/
def opcodeMap0 : List OpcodeRow := [
  one .brk .imp .brk 7,
  two .ora .izx .oraIzx 6,
  undocumented .ill02,
  undocumented .ill03,
  undocumented .ill04,
  two .ora .zp .oraZp 3,
  two .asl .zp .aslZp 5,
  undocumented .ill07,
  one .php .imp .php 3,
  two .ora .imm .oraImm 2,
  one .asl .acc .aslAcc 2,
  undocumented .ill0B,
  undocumented .ill0C,
  three .ora .abs .oraAbs 4,
  three .asl .abs .aslAbs 6,
  undocumented .ill0F]

/-- Row 1x of the opcode map (30_encoding.md R124). -/
def opcodeMap1 : List OpcodeRow := [
  two .bpl .rel .bpl 2,
  (two .ora .izy .oraIzy 5).crossing,
  undocumented .ill12,
  undocumented .ill13,
  undocumented .ill14,
  two .ora .zpx .oraZpx 4,
  two .asl .zpx .aslZpx 6,
  undocumented .ill17,
  one .clc .imp .clc 2,
  (three .ora .aby .oraAby 4).crossing,
  undocumented .ill1A,
  undocumented .ill1B,
  undocumented .ill1C,
  (three .ora .abx .oraAbx 4).crossing,
  three .asl .abx .aslAbx 7,
  undocumented .ill1F]

/-- Row 2x of the opcode map (30_encoding.md R124). -/
def opcodeMap2 : List OpcodeRow := [
  three .jsr .abs .jsr 6,
  two .and .izx .andIzx 6,
  undocumented .ill22,
  undocumented .ill23,
  two .bit .zp .bitZp 3,
  two .and .zp .andZp 3,
  two .rol .zp .rolZp 5,
  undocumented .ill27,
  one .plp .imp .plp 4,
  two .and .imm .andImm 2,
  one .rol .acc .rolAcc 2,
  undocumented .ill2B,
  three .bit .abs .bitAbs 4,
  three .and .abs .andAbs 4,
  three .rol .abs .rolAbs 6,
  undocumented .ill2F]

/-- Row 3x of the opcode map (30_encoding.md R124). -/
def opcodeMap3 : List OpcodeRow := [
  two .bmi .rel .bmi 2,
  (two .and .izy .andIzy 5).crossing,
  undocumented .ill32,
  undocumented .ill33,
  undocumented .ill34,
  two .and .zpx .andZpx 4,
  two .rol .zpx .rolZpx 6,
  undocumented .ill37,
  one .sec .imp .sec 2,
  (three .and .aby .andAby 4).crossing,
  undocumented .ill3A,
  undocumented .ill3B,
  undocumented .ill3C,
  (three .and .abx .andAbx 4).crossing,
  three .rol .abx .rolAbx 7,
  undocumented .ill3F]

/-- Row 4x of the opcode map (30_encoding.md R124). -/
def opcodeMap4 : List OpcodeRow := [
  one .rti .imp .rti 6,
  two .eor .izx .eorIzx 6,
  undocumented .ill42,
  undocumented .ill43,
  undocumented .ill44,
  two .eor .zp .eorZp 3,
  two .lsr .zp .lsrZp 5,
  undocumented .ill47,
  one .pha .imp .pha 3,
  two .eor .imm .eorImm 2,
  one .lsr .acc .lsrAcc 2,
  undocumented .ill4B,
  three .jmp .abs .jmpAbs 3,
  three .eor .abs .eorAbs 4,
  three .lsr .abs .lsrAbs 6,
  undocumented .ill4F]

/-- Row 5x of the opcode map (30_encoding.md R124). -/
def opcodeMap5 : List OpcodeRow := [
  two .bvc .rel .bvc 2,
  (two .eor .izy .eorIzy 5).crossing,
  undocumented .ill52,
  undocumented .ill53,
  undocumented .ill54,
  two .eor .zpx .eorZpx 4,
  two .lsr .zpx .lsrZpx 6,
  undocumented .ill57,
  one .cli .imp .cli 2,
  (three .eor .aby .eorAby 4).crossing,
  undocumented .ill5A,
  undocumented .ill5B,
  undocumented .ill5C,
  (three .eor .abx .eorAbx 4).crossing,
  three .lsr .abx .lsrAbx 7,
  undocumented .ill5F]

/-- Row 6x of the opcode map (30_encoding.md R124). -/
def opcodeMap6 : List OpcodeRow := [
  one .rts .imp .rts 6,
  two .adc .izx .adcIzx 6,
  undocumented .ill62,
  undocumented .ill63,
  undocumented .ill64,
  two .adc .zp .adcZp 3,
  two .ror .zp .rorZp 5,
  undocumented .ill67,
  one .pla .imp .pla 4,
  two .adc .imm .adcImm 2,
  one .ror .acc .rorAcc 2,
  undocumented .ill6B,
  three .jmp .ind .jmpInd 5,
  three .adc .abs .adcAbs 4,
  three .ror .abs .rorAbs 6,
  undocumented .ill6F]

/-- Row 7x of the opcode map (30_encoding.md R124). -/
def opcodeMap7 : List OpcodeRow := [
  two .bvs .rel .bvs 2,
  (two .adc .izy .adcIzy 5).crossing,
  undocumented .ill72,
  undocumented .ill73,
  undocumented .ill74,
  two .adc .zpx .adcZpx 4,
  two .ror .zpx .rorZpx 6,
  undocumented .ill77,
  one .sei .imp .sei 2,
  (three .adc .aby .adcAby 4).crossing,
  undocumented .ill7A,
  undocumented .ill7B,
  undocumented .ill7C,
  (three .adc .abx .adcAbx 4).crossing,
  three .ror .abx .rorAbx 7,
  undocumented .ill7F]

/-- Row 8x of the opcode map (30_encoding.md R124). -/
def opcodeMap8 : List OpcodeRow := [
  undocumented .ill80,
  two .sta .izx .staIzx 6,
  undocumented .ill82,
  undocumented .ill83,
  two .sty .zp .styZp 3,
  two .sta .zp .staZp 3,
  two .stx .zp .stxZp 3,
  undocumented .ill87,
  one .dey .imp .dey 2,
  undocumented .ill89,
  one .txa .imp .txa 2,
  undocumented .ill8B,
  three .sty .abs .styAbs 4,
  three .sta .abs .staAbs 4,
  three .stx .abs .stxAbs 4,
  undocumented .ill8F]

/-- Row 9x of the opcode map (30_encoding.md R124). -/
def opcodeMap9 : List OpcodeRow := [
  two .bcc .rel .bcc 2,
  two .sta .izy .staIzy 6,
  undocumented .ill92,
  undocumented .ill93,
  two .sty .zpx .styZpx 4,
  two .sta .zpx .staZpx 4,
  two .stx .zpy .stxZpy 4,
  undocumented .ill97,
  one .tya .imp .tya 2,
  three .sta .aby .staAby 5,
  one .txs .imp .txs 2,
  undocumented .ill9B,
  undocumented .ill9C,
  three .sta .abx .staAbx 5,
  undocumented .ill9E,
  undocumented .ill9F]

/-- Row Ax of the opcode map (30_encoding.md R124). -/
def opcodeMapA : List OpcodeRow := [
  two .ldy .imm .ldyImm 2,
  two .lda .izx .ldaIzx 6,
  two .ldx .imm .ldxImm 2,
  undocumented .illA3,
  two .ldy .zp .ldyZp 3,
  two .lda .zp .ldaZp 3,
  two .ldx .zp .ldxZp 3,
  undocumented .illA7,
  one .tay .imp .tay 2,
  two .lda .imm .ldaImm 2,
  one .tax .imp .tax 2,
  undocumented .illAB,
  three .ldy .abs .ldyAbs 4,
  three .lda .abs .ldaAbs 4,
  three .ldx .abs .ldxAbs 4,
  undocumented .illAF]

/-- Row Bx of the opcode map (30_encoding.md R124). -/
def opcodeMapB : List OpcodeRow := [
  two .bcs .rel .bcs 2,
  (two .lda .izy .ldaIzy 5).crossing,
  undocumented .illB2,
  undocumented .illB3,
  two .ldy .zpx .ldyZpx 4,
  two .lda .zpx .ldaZpx 4,
  two .ldx .zpy .ldxZpy 4,
  undocumented .illB7,
  one .clv .imp .clv 2,
  (three .lda .aby .ldaAby 4).crossing,
  one .tsx .imp .tsx 2,
  undocumented .illBB,
  (three .ldy .abx .ldyAbx 4).crossing,
  (three .lda .abx .ldaAbx 4).crossing,
  (three .ldx .aby .ldxAby 4).crossing,
  undocumented .illBF]

/-- Row Cx of the opcode map (30_encoding.md R124). -/
def opcodeMapC : List OpcodeRow := [
  two .cpy .imm .cpyImm 2,
  two .cmp .izx .cmpIzx 6,
  undocumented .illC2,
  undocumented .illC3,
  two .cpy .zp .cpyZp 3,
  two .cmp .zp .cmpZp 3,
  two .dec .zp .decZp 5,
  undocumented .illC7,
  one .iny .imp .iny 2,
  two .cmp .imm .cmpImm 2,
  one .dex .imp .dex 2,
  undocumented .illCB,
  three .cpy .abs .cpyAbs 4,
  three .cmp .abs .cmpAbs 4,
  three .dec .abs .decAbs 6,
  undocumented .illCF]

/-- Row Dx of the opcode map (30_encoding.md R124). -/
def opcodeMapD : List OpcodeRow := [
  two .bne .rel .bne 2,
  (two .cmp .izy .cmpIzy 5).crossing,
  undocumented .illD2,
  undocumented .illD3,
  undocumented .illD4,
  two .cmp .zpx .cmpZpx 4,
  two .dec .zpx .decZpx 6,
  undocumented .illD7,
  one .cld .imp .cld 2,
  (three .cmp .aby .cmpAby 4).crossing,
  undocumented .illDA,
  undocumented .illDB,
  undocumented .illDC,
  (three .cmp .abx .cmpAbx 4).crossing,
  three .dec .abx .decAbx 7,
  undocumented .illDF]

/-- Row Ex of the opcode map (30_encoding.md R124). -/
def opcodeMapE : List OpcodeRow := [
  two .cpx .imm .cpxImm 2,
  two .sbc .izx .sbcIzx 6,
  undocumented .illE2,
  undocumented .illE3,
  two .cpx .zp .cpxZp 3,
  two .sbc .zp .sbcZp 3,
  two .inc .zp .incZp 5,
  undocumented .illE7,
  one .inx .imp .inx 2,
  two .sbc .imm .sbcImm 2,
  one .nop .imp .nop 2,
  undocumented .illEB,
  three .cpx .abs .cpxAbs 4,
  three .sbc .abs .sbcAbs 4,
  three .inc .abs .incAbs 6,
  undocumented .illEF]

/-- Row Fx of the opcode map (30_encoding.md R124). -/
def opcodeMapF : List OpcodeRow := [
  two .beq .rel .beq 2,
  (two .sbc .izy .sbcIzy 5).crossing,
  undocumented .illF2,
  undocumented .illF3,
  undocumented .illF4,
  two .sbc .zpx .sbcZpx 4,
  two .inc .zpx .incZpx 6,
  undocumented .illF7,
  one .sed .imp .sed 2,
  (three .sbc .aby .sbcAby 4).crossing,
  undocumented .illFA,
  undocumented .illFB,
  undocumented .illFC,
  (three .sbc .abx .sbcAbx 4).crossing,
  three .inc .abx .incAbx 7,
  undocumented .illFF]

/-- The complete opcode map, row after row (30_encoding.md R124). -/
def opcodeMap : List OpcodeRow :=
  opcodeMap0 ++ opcodeMap1 ++ opcodeMap2 ++ opcodeMap3 ++
  opcodeMap4 ++ opcodeMap5 ++ opcodeMap6 ++ opcodeMap7 ++
  opcodeMap8 ++ opcodeMap9 ++ opcodeMapA ++ opcodeMapB ++
  opcodeMapC ++ opcodeMapD ++ opcodeMapE ++ opcodeMapF

theorem opcodeMap_length : opcodeMap.length = 256 := by
  simp only [opcodeMap, List.length_append]
  rfl

/-- The lookup of 30_encoding.md R121: total, and a function of the opcode byte alone (R15, R126). -/
def opcodeRow (op : Byte) : OpcodeRow :=
  opcodeMap[op.toNat]'(by rw [opcodeMap_length]; exact op.isLt)

/-- Why a byte list holds no whole instruction. No opcode byte is ever a reason (00_scope.md R15). -/
inductive DecodeError where
  /-- The list is empty. -/
  | noOpcode
  /-- The list ends before the operand bytes of this opcode. -/
  | missingOperand (opcode : Byte)
  deriving DecidableEq, Repr

/-- Decode the first instruction of a byte list and give the bytes after it (30_encoding.md R120 to R122: operands are
little-endian, R51). -/
def decode : List Byte → Except DecodeError (Instr × List Byte)
  | [] => .error .noOpcode
  | op :: rest =>
    match (opcodeRow op).form with
    | .implied i => .ok (i, rest)
    | .byte f =>
      match rest with
      | b1 :: rest' => .ok (f b1, rest')
      | [] => .error (.missingOperand op)
    | .word f =>
      match rest with
      | b1 :: b2 :: rest' => .ok (f (wordOf b2 b1), rest')
      | _ => .error (.missingOperand op)

/-- The three bytes of an instruction given as one number, the first byte least significant; bits from `nbits` on are 0. -/
def tableWordBytes (nbits w : Nat) : List Byte :=
  let u := w % 2 ^ nbits
  [BitVec.ofNat 8 u, BitVec.ofNat 8 (u / 256), BitVec.ofNat 8 (u / 65536)]

/-- The instruction the decoder reads from a word numbered as spec/opcode_table.json numbers it. -/
def decodeTableWord (nbits w : Nat) : Option Instr :=
  match decode (tableWordBytes nbits w) with
  | .ok (i, _) => some i
  | .error _ => none

/-- The operand bytes of a word, low byte first (20_memory.md R51). -/
def wordBytes (w : Word) : List Byte := [loByte w, hiByte w]

/-- The bytes of an instruction, from the `match` and `encoding` columns of spec/opcode_table.json. -/
def encode : Instr → List Byte
  | .brk => [0x00]
  | .oraIzx p => [0x01, p]
  | .ill02 => [0x02]
  | .ill03 => [0x03]
  | .ill04 => [0x04]
  | .oraZp p => [0x05, p]
  | .aslZp p => [0x06, p]
  | .ill07 => [0x07]
  | .php => [0x08]
  | .oraImm v => [0x09, v]
  | .aslAcc => [0x0A]
  | .ill0B => [0x0B]
  | .ill0C => [0x0C]
  | .oraAbs addr => 0x0D :: wordBytes addr
  | .aslAbs addr => 0x0E :: wordBytes addr
  | .ill0F => [0x0F]
  | .bpl d => [0x10, d]
  | .oraIzy p => [0x11, p]
  | .ill12 => [0x12]
  | .ill13 => [0x13]
  | .ill14 => [0x14]
  | .oraZpx p => [0x15, p]
  | .aslZpx p => [0x16, p]
  | .ill17 => [0x17]
  | .clc => [0x18]
  | .oraAby base => 0x19 :: wordBytes base
  | .ill1A => [0x1A]
  | .ill1B => [0x1B]
  | .ill1C => [0x1C]
  | .oraAbx base => 0x1D :: wordBytes base
  | .aslAbx base => 0x1E :: wordBytes base
  | .ill1F => [0x1F]
  | .jsr addr => 0x20 :: wordBytes addr
  | .andIzx p => [0x21, p]
  | .ill22 => [0x22]
  | .ill23 => [0x23]
  | .bitZp p => [0x24, p]
  | .andZp p => [0x25, p]
  | .rolZp p => [0x26, p]
  | .ill27 => [0x27]
  | .plp => [0x28]
  | .andImm v => [0x29, v]
  | .rolAcc => [0x2A]
  | .ill2B => [0x2B]
  | .bitAbs addr => 0x2C :: wordBytes addr
  | .andAbs addr => 0x2D :: wordBytes addr
  | .rolAbs addr => 0x2E :: wordBytes addr
  | .ill2F => [0x2F]
  | .bmi d => [0x30, d]
  | .andIzy p => [0x31, p]
  | .ill32 => [0x32]
  | .ill33 => [0x33]
  | .ill34 => [0x34]
  | .andZpx p => [0x35, p]
  | .rolZpx p => [0x36, p]
  | .ill37 => [0x37]
  | .sec => [0x38]
  | .andAby base => 0x39 :: wordBytes base
  | .ill3A => [0x3A]
  | .ill3B => [0x3B]
  | .ill3C => [0x3C]
  | .andAbx base => 0x3D :: wordBytes base
  | .rolAbx base => 0x3E :: wordBytes base
  | .ill3F => [0x3F]
  | .rti => [0x40]
  | .eorIzx p => [0x41, p]
  | .ill42 => [0x42]
  | .ill43 => [0x43]
  | .ill44 => [0x44]
  | .eorZp p => [0x45, p]
  | .lsrZp p => [0x46, p]
  | .ill47 => [0x47]
  | .pha => [0x48]
  | .eorImm v => [0x49, v]
  | .lsrAcc => [0x4A]
  | .ill4B => [0x4B]
  | .jmpAbs addr => 0x4C :: wordBytes addr
  | .eorAbs addr => 0x4D :: wordBytes addr
  | .lsrAbs addr => 0x4E :: wordBytes addr
  | .ill4F => [0x4F]
  | .bvc d => [0x50, d]
  | .eorIzy p => [0x51, p]
  | .ill52 => [0x52]
  | .ill53 => [0x53]
  | .ill54 => [0x54]
  | .eorZpx p => [0x55, p]
  | .lsrZpx p => [0x56, p]
  | .ill57 => [0x57]
  | .cli => [0x58]
  | .eorAby base => 0x59 :: wordBytes base
  | .ill5A => [0x5A]
  | .ill5B => [0x5B]
  | .ill5C => [0x5C]
  | .eorAbx base => 0x5D :: wordBytes base
  | .lsrAbx base => 0x5E :: wordBytes base
  | .ill5F => [0x5F]
  | .rts => [0x60]
  | .adcIzx p => [0x61, p]
  | .ill62 => [0x62]
  | .ill63 => [0x63]
  | .ill64 => [0x64]
  | .adcZp p => [0x65, p]
  | .rorZp p => [0x66, p]
  | .ill67 => [0x67]
  | .pla => [0x68]
  | .adcImm v => [0x69, v]
  | .rorAcc => [0x6A]
  | .ill6B => [0x6B]
  | .jmpInd ptr => 0x6C :: wordBytes ptr
  | .adcAbs addr => 0x6D :: wordBytes addr
  | .rorAbs addr => 0x6E :: wordBytes addr
  | .ill6F => [0x6F]
  | .bvs d => [0x70, d]
  | .adcIzy p => [0x71, p]
  | .ill72 => [0x72]
  | .ill73 => [0x73]
  | .ill74 => [0x74]
  | .adcZpx p => [0x75, p]
  | .rorZpx p => [0x76, p]
  | .ill77 => [0x77]
  | .sei => [0x78]
  | .adcAby base => 0x79 :: wordBytes base
  | .ill7A => [0x7A]
  | .ill7B => [0x7B]
  | .ill7C => [0x7C]
  | .adcAbx base => 0x7D :: wordBytes base
  | .rorAbx base => 0x7E :: wordBytes base
  | .ill7F => [0x7F]
  | .ill80 => [0x80]
  | .staIzx p => [0x81, p]
  | .ill82 => [0x82]
  | .ill83 => [0x83]
  | .styZp p => [0x84, p]
  | .staZp p => [0x85, p]
  | .stxZp p => [0x86, p]
  | .ill87 => [0x87]
  | .dey => [0x88]
  | .ill89 => [0x89]
  | .txa => [0x8A]
  | .ill8B => [0x8B]
  | .styAbs addr => 0x8C :: wordBytes addr
  | .staAbs addr => 0x8D :: wordBytes addr
  | .stxAbs addr => 0x8E :: wordBytes addr
  | .ill8F => [0x8F]
  | .bcc d => [0x90, d]
  | .staIzy p => [0x91, p]
  | .ill92 => [0x92]
  | .ill93 => [0x93]
  | .styZpx p => [0x94, p]
  | .staZpx p => [0x95, p]
  | .stxZpy p => [0x96, p]
  | .ill97 => [0x97]
  | .tya => [0x98]
  | .staAby base => 0x99 :: wordBytes base
  | .txs => [0x9A]
  | .ill9B => [0x9B]
  | .ill9C => [0x9C]
  | .staAbx base => 0x9D :: wordBytes base
  | .ill9E => [0x9E]
  | .ill9F => [0x9F]
  | .ldyImm v => [0xA0, v]
  | .ldaIzx p => [0xA1, p]
  | .ldxImm v => [0xA2, v]
  | .illA3 => [0xA3]
  | .ldyZp p => [0xA4, p]
  | .ldaZp p => [0xA5, p]
  | .ldxZp p => [0xA6, p]
  | .illA7 => [0xA7]
  | .tay => [0xA8]
  | .ldaImm v => [0xA9, v]
  | .tax => [0xAA]
  | .illAB => [0xAB]
  | .ldyAbs addr => 0xAC :: wordBytes addr
  | .ldaAbs addr => 0xAD :: wordBytes addr
  | .ldxAbs addr => 0xAE :: wordBytes addr
  | .illAF => [0xAF]
  | .bcs d => [0xB0, d]
  | .ldaIzy p => [0xB1, p]
  | .illB2 => [0xB2]
  | .illB3 => [0xB3]
  | .ldyZpx p => [0xB4, p]
  | .ldaZpx p => [0xB5, p]
  | .ldxZpy p => [0xB6, p]
  | .illB7 => [0xB7]
  | .clv => [0xB8]
  | .ldaAby base => 0xB9 :: wordBytes base
  | .tsx => [0xBA]
  | .illBB => [0xBB]
  | .ldyAbx base => 0xBC :: wordBytes base
  | .ldaAbx base => 0xBD :: wordBytes base
  | .ldxAby base => 0xBE :: wordBytes base
  | .illBF => [0xBF]
  | .cpyImm v => [0xC0, v]
  | .cmpIzx p => [0xC1, p]
  | .illC2 => [0xC2]
  | .illC3 => [0xC3]
  | .cpyZp p => [0xC4, p]
  | .cmpZp p => [0xC5, p]
  | .decZp p => [0xC6, p]
  | .illC7 => [0xC7]
  | .iny => [0xC8]
  | .cmpImm v => [0xC9, v]
  | .dex => [0xCA]
  | .illCB => [0xCB]
  | .cpyAbs addr => 0xCC :: wordBytes addr
  | .cmpAbs addr => 0xCD :: wordBytes addr
  | .decAbs addr => 0xCE :: wordBytes addr
  | .illCF => [0xCF]
  | .bne d => [0xD0, d]
  | .cmpIzy p => [0xD1, p]
  | .illD2 => [0xD2]
  | .illD3 => [0xD3]
  | .illD4 => [0xD4]
  | .cmpZpx p => [0xD5, p]
  | .decZpx p => [0xD6, p]
  | .illD7 => [0xD7]
  | .cld => [0xD8]
  | .cmpAby base => 0xD9 :: wordBytes base
  | .illDA => [0xDA]
  | .illDB => [0xDB]
  | .illDC => [0xDC]
  | .cmpAbx base => 0xDD :: wordBytes base
  | .decAbx base => 0xDE :: wordBytes base
  | .illDF => [0xDF]
  | .cpxImm v => [0xE0, v]
  | .sbcIzx p => [0xE1, p]
  | .illE2 => [0xE2]
  | .illE3 => [0xE3]
  | .cpxZp p => [0xE4, p]
  | .sbcZp p => [0xE5, p]
  | .incZp p => [0xE6, p]
  | .illE7 => [0xE7]
  | .inx => [0xE8]
  | .sbcImm v => [0xE9, v]
  | .nop => [0xEA]
  | .illEB => [0xEB]
  | .cpxAbs addr => 0xEC :: wordBytes addr
  | .sbcAbs addr => 0xED :: wordBytes addr
  | .incAbs addr => 0xEE :: wordBytes addr
  | .illEF => [0xEF]
  | .beq d => [0xF0, d]
  | .sbcIzy p => [0xF1, p]
  | .illF2 => [0xF2]
  | .illF3 => [0xF3]
  | .illF4 => [0xF4]
  | .sbcZpx p => [0xF5, p]
  | .incZpx p => [0xF6, p]
  | .illF7 => [0xF7]
  | .sed => [0xF8]
  | .sbcAby base => 0xF9 :: wordBytes base
  | .illFA => [0xFA]
  | .illFB => [0xFB]
  | .illFC => [0xFC]
  | .sbcAbx base => 0xFD :: wordBytes base
  | .incAbx base => 0xFE :: wordBytes base
  | .illFF => [0xFF]

/-- The opcode byte of an instruction. -/
def Instr.opcode (i : Instr) : Byte := (encode i).headD 0

/-- How many bytes an instruction has (30_encoding.md R120). -/
def Instr.length (i : Instr) : Nat := (encode i).length

/-- The map row of an instruction. -/
def Instr.row (i : Instr) : OpcodeRow := opcodeRow i.opcode

/-- The opcode of an (operation, mode) pair: its place in the map of 30_encoding.md R124. -/
def opcodeOf (op : Operation) (mode : Mode) : Option Byte :=
  (opcodeMap.findIdx? fun r => r.op == op && r.mode == mode).map (BitVec.ofNat 8)

/-- The bytes of a well-formed assembler statement (30_encoding.md R127): the opcode, then the operand low byte first. -/
def assemble : AsmStatement → Option (List Byte)
  | .byte v => if (AsmStatement.byte v).wf then some [BitVec.ofNat 8 v] else none
  | .instr op mode operand =>
    if (AsmStatement.instr op mode operand).wf then
      (opcodeOf op mode).map fun b => b :: (wordBytes (BitVec.ofNat 16 operand)).take mode.operandBytes
    else none

/-- The displacement byte of a branch at `p` to `target`, where one exists (30_encoding.md R123). -/
def branchDisplacement (p target : Word) : Option Byte :=
  let d := loByte (target - (p + 2))
  if p + 2 + sext16 d = target then some d else none

end Sys2Proof
end

