-- ==== Sys2Proof/Machine/State.lean ====
section
/-! DEFINITION. The state of the block (10_state.md: registers, flags, soft-switch registry, RAM, ROM, switch log, bus event
log, cycle counter, fault mark), the configuration it runs under, the environment draws still to come, the reasons a step
can stop, and the state right after the power-on reset. Plain data throughout. -/

namespace Sys2Proof.Machine

/-- A byte store keyed by physical offset: addresses strictly rising, no entry equal to what an unlisted offset reads as
(`Memory.wf`, Machine/Memory.lean). -/
abbrev Memory := List Host.Cell

/-- The six stored flags (10_state.md R26). B and bit 5 have no storage. -/
structure Flags where
  n : Bool
  v : Bool
  d : Bool
  i : Bool
  z : Bool
  c : Bool
  deriving DecidableEq, Repr

/-- The soft-switch registry: one named flag per `Switch`, in index order (10_state.md R30; 20_memory.md R77). -/
structure Registry where
  lcBank1 : Bool
  lcReadRam : Bool
  lcWriteRam : Bool
  lcPrewrite : Bool
  store80 : Bool
  ramrd : Bool
  ramwrt : Bool
  altzp : Bool
  col80 : Bool
  altcharset : Bool
  text : Bool
  mixed : Bool
  page2 : Bool
  hires : Bool
  intcxrom : Bool
  slotc3rom : Bool
  deriving DecidableEq, Repr

/-- The draws of a power-on: every value 70_reset_and_hazards.md R358 leaves unspecified. -/
structure PowerOnDraws where
  a : Byte
  x : Byte
  y : Byte
  sp : Byte
  pc : Word
  p : Flags
  ram : List Host.Cell
  deriving DecidableEq, Repr

/-- `resetRequest` at a boundary (70_reset_and_hazards.md R350), with the two kinds of R356; a cold reset brings fresh
power-on draws (log 11). -/
inductive ResetRequest where
  | none
  | warm
  | cold (draws : PowerOnDraws)
  deriving DecidableEq, Repr

/-- What the environment does at one instruction boundary (00_scope.md R8; 60_exceptions.md R332; log 1): indices it passes
to the registry itself (20_memory.md R76), the PC each PRE_STEP sweep leaves (R319), the STEP handlers' PC (R320), the reset
request (R350) and the level of the IRQ line (R312). -/
structure BoundaryInput where
  registryReads : List Nat
  sweeps : List Word
  stepPcChange : Option Word
  reset : ResetRequest
  irqLine : Bool
  deriving DecidableEq, Repr

/-- Model faults (60_exceptions.md R322): "fatal assertion/abort". No instruction raises one; each comes from the environment. -/
inductive Fault where
  /-- Raised by the PRE_STEP sweep loop at its retry bound (R319). SAFE: the spec's own fault. -/
  | prestepLoop
  /-- Raised by a STEP handler that changes PC (R320). SAFE: the spec's own fault. -/
  | stepPcMutated
  /-- Raised by a registry primitive given an index outside 0..15 (20_memory.md R76). SAFE: the spec's own fault. -/
  | badSwitchIndex
  deriving DecidableEq, Repr

/-- Reasons the model gives no meaning. -/
inductive Refusal where
  /-- Raised by an arm of `exec` whose instruction has no meaning yet; no arm raises it now. SAFE: nothing is claimed. -/
  | notModelled (mnemonic : String)
  /-- Raised at launch by a ROM image that is not of `ROM_SIZE` bytes (60_exceptions.md R323). SAFE: the spec refuses it. -/
  | badRomSize
  /-- Raised at launch by a RAM size other than 65536 or 131072 (R323). SAFE: the spec refuses it. -/
  | badRamSize
  /-- Raised by a step at a boundary with PC = END_PC: the run has ended and the spec says nothing of what the machine
  does there (60_exceptions.md R334; log 13). SAFE: nothing is claimed. -/
  | runEnded
  deriving DecidableEq, Repr

/-- The machine. Registers `a x y sp pc` (10_state.md R20 to R24), flags `p` (R25, R26), soft switches `sw` (R30), memory
`ram rom` (R31), logs `swlog buslog` (R32, R33), `cycles` (R34), marks `fault refusal` (R37), `powerOn`: the first step to
come is the power-on reset (70_reset_and_hazards.md R358), `cfg`: the parameters fixed for the run (00_scope.md R7), and the
model's own queues of environment draws `inputs ioDraws suppressDraws` (00_scope.md R8; log 1, 2, 3). -/
structure State where
  a : Byte
  x : Byte
  y : Byte
  sp : Byte
  pc : Word
  p : Flags
  sw : Registry
  ram : Memory
  rom : Memory
  swlog : List SwitchEntry
  buslog : List BusEvent
  cycles : Nat
  fault : Option Fault
  refusal : Option Refusal
  powerOn : Bool
  cfg : Config
  inputs : List BoundaryInput
  ioDraws : List Byte
  suppressDraws : List Bool
  deriving DecidableEq, Repr

/-- The configuration of `State.reset`: the defaults of 00_scope.md R7, with `MACHINE = IIE` and `END_PC = 0xFFFF`, for
which R7 gives no default (log 5), and the default `HOOKED` set of 20_memory.md R71 for an IIE with a language card. -/
def defaultConfig : Config where
  machine := .iie
  ramSize := 131072
  lcPresent := true
  altzpMode := .standard
  store80Mode := .or
  lcPowerOn := ⟨false, false, false, false⟩
  prestepLimit := 100
  hooked := [⟨0xC010, 0xC010⟩, ⟨0xC020, 0xC04F⟩, ⟨0xC058, 0xC07F⟩, ⟨0xC090, 0xCFFF⟩]
  endPc := 0xFFFF

/-- The soft switches after reset with all language-card flags false: only TEXT is set (70_reset_and_hazards.md R352). -/
def resetSwitches : Registry where
  lcBank1 := false
  lcReadRam := false
  lcWriteRam := false
  lcPrewrite := false
  store80 := false
  ramrd := false
  ramwrt := false
  altzp := false
  col80 := false
  altcharset := false
  text := true
  mixed := false
  page2 := false
  hires := false
  intcxrom := false
  slotc3rom := false

/-- A plain PEEK of the reset sequence that read 0x00. -/
def resetPeek (cycle : Nat) (addr : Word) (kind : BankKind) (offset : Nat) : BusEvent :=
  ⟨cycle, .peek, addr, ⟨kind, offset, false⟩, 0x00, false, false⟩

/-- The eight bus cycles of the power-on reset (70_reset_and_hazards.md R351) from PC = 0x0000 and S = 0x00. -/
def resetBuslog : List BusEvent := [
  resetPeek 0 0x0000 .main 0x0000,
  resetPeek 1 0x0000 .main 0x0000,
  resetPeek 2 0x0000 .main 0x0000,
  resetPeek 3 0x0100 .main 0x0100,
  resetPeek 4 0x01FF .main 0x01FF,
  resetPeek 5 0x01FE .main 0x01FE,
  resetPeek 6 0xFFFC .rom 0x3FFC,
  resetPeek 7 0xFFFD .rom 0x3FFD]

/-- The machine right after the power-on reset sequence (10_state.md R38; 70_reset_and_hazards.md R351, R358): I = 1, TEXT
set, S three below its power-on value, PC the reset vector, 8 cycles and 8 events. What the spec leaves to a draw or to an
argument is named in log 5 to 9. -/
def State.reset : State where
  a := 0x00
  x := 0x00
  y := 0x00
  sp := 0xFD
  pc := 0x0000
  p := ⟨false, false, false, true, false, false⟩
  sw := resetSwitches
  ram := []
  rom := []
  swlog := []
  buslog := resetBuslog
  cycles := 8
  fault := none
  refusal := none
  powerOn := false
  cfg := defaultConfig
  inputs := []
  ioDraws := []
  suppressDraws := []

end Sys2Proof.Machine
end

