-- ==== Sys2Proof/Machine/Flags.lean ====
section
/-! DEFINITION. Every flag computation of the spec: packing P (10_state.md R27), `setNZ` (00_scope.md R12), the binary and the
NMOS decimal adder and subtracter (42_arithmetic.md R200 to R203), the compare (R206) and the carries of shifts and
rotates (43_logic_shift.md R234 to R237). -/

namespace Sys2Proof.Machine

/-- One flag as a byte with that bit at position `k`. -/
def flagBit (b : Bool) (k : Nat) : Byte := if b then BitVec.ofNat 8 (2 ^ k) else 0

/-- `packP(b)` (10_state.md R27): N V 1 B D I Z C. -/
def packP (b : Bool) (p : Flags) : Byte :=
  flagBit p.n 7 ||| flagBit p.v 6 ||| flagBit true 5 ||| flagBit b 4 |||
    flagBit p.d 3 ||| flagBit p.i 2 ||| flagBit p.z 1 ||| flagBit p.c 0

/-- `unpackP(v)` (10_state.md R27): bits 5 and 4 are ignored. -/
def unpackP (v : Byte) : Flags where
  n := v.getLsbD 7
  v := v.getLsbD 6
  d := v.getLsbD 3
  i := v.getLsbD 2
  z := v.getLsbD 1
  c := v.getLsbD 0

/-- `setNZ(v)` (00_scope.md R12). -/
def Flags.setNZ (p : Flags) (v : Byte) : Flags := { p with n := v.getLsbD 7, z := v == 0 }

/-- The answer of an adder: the result byte and the four flags it defines. -/
structure AluResult where
  result : Byte
  n : Bool
  v : Bool
  z : Bool
  c : Bool
  deriving DecidableEq, Repr

/-- Write an adder's four flags; D and I are unchanged. -/
def Flags.setAlu (p : Flags) (r : AluResult) : Flags := { p with n := r.n, v := r.v, z := r.z, c := r.c }

/-- `adcBin(a, m, c)` (42_arithmetic.md R200). -/
def adcBin (a m : Byte) (c : Bool) : AluResult :=
  let s := a.toNat + m.toNat + c.toNat
  let result := BitVec.ofNat 8 s
  { result := result
    n := result.getLsbD 7
    v := ((a ^^^ result) &&& (m ^^^ result) &&& 0x80) != 0
    z := result == 0
    c := decide (0xFF < s) }

/-- The low-digit sum of `adcDec`, adjusted (42_arithmetic.md R201). -/
def adcDecLow (a m : Byte) (c : Bool) : Nat :=
  let al := (a &&& 0x0F).toNat + (m &&& 0x0F).toNat + c.toNat
  if 0x0A ≤ al then (al + 0x06) % 16 + 0x10 else al

/-- `adcDec(a, m, c)` of the NMOS part (42_arithmetic.md R201). -/
def adcDec (a m : Byte) (c : Bool) : AluResult :=
  let al := adcDecLow a m c
  let s := (a &&& 0xF0).toNat + (m &&& 0xF0).toNat + al
  let ss : Int := (a &&& 0xF0).toInt + (m &&& 0xF0).toInt + al
  let t := if 0xA0 ≤ s then s + 0x60 else s
  { result := BitVec.ofNat 8 t
    n := s.testBit 7
    v := decide (ss < -128) || decide (127 < ss)
    z := (a.toNat + m.toNat + c.toNat) % 256 == 0
    c := decide (0x100 ≤ t) }

/-- `sbcBin(a, m, c)` (42_arithmetic.md R202). -/
def sbcBin (a m : Byte) (c : Bool) : AluResult := adcBin a (~~~m) c

/-- The low-digit difference of `sbcDec`, adjusted; `&` on a negative integer is the two's-complement AND
(42_arithmetic.md, opening, and R203). -/
def sbcDecLow (a m : Byte) (c : Bool) : Int :=
  let al : Int := (a &&& 0x0F).toNat - (m &&& 0x0F).toNat + c.toNat - 1
  if al < 0 then (al - 0x06) % 16 - 0x10 else al

/-- `sbcDec(a, m, c)` of the NMOS part (42_arithmetic.md R203): the decimal result with the binary flags. -/
def sbcDec (a m : Byte) (c : Bool) : AluResult :=
  let s : Int := (a &&& 0xF0).toNat - (m &&& 0xF0).toNat + sbcDecLow a m c
  let t := if s < 0 then s - 0x60 else s
  { sbcBin a m c with result := BitVec.ofInt 8 t }

/-- The flags of `cmp(r, m)` (42_arithmetic.md R206): C, Z and N; V is unchanged. -/
def Flags.setCompare (p : Flags) (r m : Byte) : Flags :=
  { p with c := decide (m ≤ r), z := r == m, n := (r - m).getLsbD 7 }

/-- The flags of a shift or rotate (43_logic_shift.md R234 to R237): the carry out, then N and Z of the result. -/
def Flags.setShift (p : Flags) (carry : Bool) (result : Byte) : Flags := { p.setNZ result with c := carry }

/-- The flags of BIT (43_logic_shift.md R233). -/
def Flags.setBit (p : Flags) (a m : Byte) : Flags :=
  { p with z := (a &&& m) == 0, n := m.getLsbD 7, v := m.getLsbD 6 }

/-- `(v << 1) & 0xFF` (43_logic_shift.md R234). -/
def shiftLeft (v : Byte) : Byte := v <<< 1

/-- `v >> 1` (43_logic_shift.md R235). -/
def shiftRight (v : Byte) : Byte := v >>> 1

/-- `((v << 1) | C_old) & 0xFF` (43_logic_shift.md R236). -/
def rotateLeft (cOld : Bool) (v : Byte) : Byte := v <<< 1 ||| flagBit cOld 0

/-- `(v >> 1) | (C_old << 7)` (43_logic_shift.md R237). -/
def rotateRight (cOld : Bool) (v : Byte) : Byte := v >>> 1 ||| flagBit cOld 7

end Sys2Proof.Machine
end

