-- ==== Sys2Proof/Machine/Memory.lean ====
section
/-! DEFINITION. Byte stores in their one canonical form: reading, writing, and building one from cells or from an image. -/

namespace Sys2Proof.Machine

namespace Memory

/-- What an unlisted offset reads as (log 7 for RAM, log 8 for ROM). DESIGN CHOICE: the spec draws every power-on RAM byte. -/
def unlisted : Byte := 0x00

/-- The byte at an offset. -/
def read (k : Nat) : Memory → Byte
  | [] => unlisted
  | (j, b) :: m => if k = j then b else read k m

/-- Put a byte in front of the entries above its offset, unless an unlisted offset already reads so. -/
def consCell (k : Nat) (v : Byte) (m : Memory) : Memory :=
  if v = unlisted then m else (k, v) :: m

/-- Store a byte, keeping the canonical form. -/
def write (k : Nat) (v : Byte) : Memory → Memory
  | [] => consCell k v []
  | (j, b) :: m =>
    if k < j then consCell k v ((j, b) :: m)
    else if k = j then consCell k v m
    else (j, b) :: write k v m

/-- The canonical form: offsets at or above `lo`, strictly rising, and no entry equal to the unlisted byte. -/
def wfFrom (lo : Nat) : Memory → Bool
  | [] => true
  | (j, b) :: m => decide (lo ≤ j) && decide (b ≠ unlisted) && wfFrom (j + 1) m

/-- The canonical form of a whole store. -/
def wf (m : Memory) : Bool := wfFrom 0 m

/-- Every listed offset is below a size. -/
def below (size : Nat) (m : Memory) : Bool := m.all fun cell => decide (cell.1 < size)

/-- The canonical store of a list of cells in any order, cells at or above `size` left out and a later cell winning. -/
def ofCells (size : Nat) (cells : List Host.Cell) : Memory :=
  cells.foldl (fun m cell => if cell.1 < size then write cell.1 cell.2 m else m) []

/-- The canonical store of an image laid out from an offset upward. -/
def ofImage (k : Nat) : List Byte → Memory
  | [] => []
  | b :: bs => consCell k b (ofImage (k + 1) bs)

end Memory

end Sys2Proof.Machine
end

