-- ==== Sys2Proof/Machine/Resolver.lean ====
section
/-! DEFINITION. The memory bank resolver (20_memory.md R54 to R67): a pure, total function of the address, the direction, the
soft switches and the configuration, and the map from its answer to storage. -/

namespace Sys2Proof

/-- `ROM_SIZE` (00_scope.md R7). -/
def Config.romSize (cfg : Config) : Nat :=
  match cfg.machine with
  | .iiPlus => 12288
  | .iie => 16384

/-- `AUX_PRESENT` (00_scope.md R7): there is auxiliary storage. -/
def Config.auxPresent (cfg : Config) : Bool := decide (65536 < cfg.ramSize)

/-- `addr in HOOKED` (20_memory.md R71). -/
def Config.isHooked (cfg : Config) (addr : Word) : Bool :=
  cfg.hooked.any fun r => decide (r.lo ≤ addr) && decide (addr ≤ r.hi)

/-- The default `HOOKED` set (20_memory.md R71): 0xC000-0xCFFF less 0xC000-0xC00F and 0xC011-0xC01F on an IIE, less
0xC050-0xC057, less 0xC080-0xC08F with a language card. -/
def Config.defaultHooked (machine : MachineModel) (lcPresent : Bool) : List AddrRange :=
  (match machine with
    | .iie => [⟨0xC010, 0xC010⟩, ⟨0xC020, 0xC04F⟩]
    | .iiPlus => [⟨0xC000, 0xC04F⟩]) ++
  (if lcPresent then [⟨0xC058, 0xC07F⟩, ⟨0xC090, 0xCFFF⟩] else [⟨0xC058, 0xCFFF⟩])

namespace Machine

/-- `IO_BASE` (20_memory.md R55). -/
def ioBase : Nat := 0xC000

/-- `LC_BASE` (20_memory.md R55). -/
def lcBase : Nat := 0xD000

/-- `BANKSW_END` (20_memory.md R55). -/
def bankswEnd : Nat := 0xE000

/-- Whether an access at or above LC_BASE is routed to ROM (20_memory.md R58). -/
def routeToRom (cfg : Config) (isWrite : Bool) (sw : Registry) : Bool :=
  !cfg.lcPresent || (!isWrite && !sw.lcReadRam) || (isWrite && !sw.lcWriteRam)

/-- The ALTZP term of a MAIN access (20_memory.md R61). -/
def auxZpMain (cfg : Config) (addr : Nat) (sw : Registry) : Bool :=
  sw.altzp &&
    match cfg.altzpMode with
    | .standard => decide (addr < 0x0200)
    | .literal => decide (0x0200 ≤ addr)

/-- The ALTZP term of a language-card access (20_memory.md R61): its address is above 0x0200, so both modes say the same. -/
def auxZpLc (sw : Registry) : Bool := sw.altzp

/-- `inDisplay` (20_memory.md R62). -/
def inDisplay (addr : Nat) (sw : Registry) : Bool :=
  (decide (0x0400 ≤ addr) && decide (addr ≤ 0x07FF)) ||
    (sw.hires && decide (0x2000 ≤ addr) && decide (addr ≤ 0x3FFF))

/-- `auxDisp` (20_memory.md R62). -/
def auxDisp (addr : Nat) (sw : Registry) : Bool := sw.store80 && inDisplay addr sw && sw.page2

/-- `auxGen` (20_memory.md R63). -/
def auxGen (addr : Nat) (isWrite : Bool) (sw : Registry) : Bool :=
  decide (0x0200 ≤ addr) && decide (addr ≤ 0xBFFF) && (if isWrite then sw.ramwrt else sw.ramrd)

/-- `isAux` of a MAIN access (20_memory.md R64). -/
def isAuxMain (cfg : Config) (addr : Nat) (isWrite : Bool) (sw : Registry) : Bool :=
  auxZpMain cfg addr sw ||
    match cfg.store80Mode with
    | .or => auxDisp addr sw || auxGen addr isWrite sw
    | .override => if sw.store80 && inDisplay addr sw then sw.page2 else auxGen addr isWrite sw

/-- `resolve(addr, isWrite, sw)` (20_memory.md R54, R56 to R64). -/
def resolve (cfg : Config) (addr : Word) (isWrite : Bool) (sw : Registry) : Resolution :=
  let n := addr.toNat
  if n < ioBase then ⟨.main, n, isAuxMain cfg n isWrite sw⟩
  else if n < lcBase then ⟨.slots, n - 0xC000, false⟩
  else if routeToRom cfg isWrite sw then ⟨.rom, n - (0x10000 - cfg.romSize), false⟩
  else if sw.lcBank1 && decide (n < bankswEnd) then ⟨.lcBank1, n - 0x1000, auxZpLc sw⟩
  else if n < bankswEnd then ⟨.lcBank2, n, auxZpLc sw⟩
  else ⟨.lcOther, n, auxZpLc sw⟩

/-- `phys` of a RAM kind (20_memory.md R66); without auxiliary storage a read falls back to the main bank (R65). -/
def physOf (cfg : Config) (r : Resolution) : Nat :=
  (if r.isAux && cfg.auxPresent then 0x10000 else 0) + r.offset

/-- The RAM offset a read of a resolution is answered from; none for ROM and SLOTS (20_memory.md R57, R66, R67). -/
def ramSource (cfg : Config) (r : Resolution) : Option Nat :=
  match r.kind with
  | .main | .lcBank1 | .lcBank2 | .lcOther => some (physOf cfg r)
  | .slots | .rom => none

/-- The RAM offset a write of a resolution stores to; none for ROM (20_memory.md R67), SLOTS (R72) and an auxiliary write
with no auxiliary storage (R65). -/
def ramTarget (cfg : Config) (r : Resolution) : Option Nat :=
  match r.kind with
  | .main | .lcBank1 | .lcBank2 | .lcOther => if r.isAux && !cfg.auxPresent then none else some (physOf cfg r)
  | .slots | .rom => none

end Machine

end Sys2Proof
end

