-- ==== Sys2Proof/Machine/Switches.lean ====
section
/-! DEFINITION. The soft-switch registry (20_memory.md R74 to R77), the language-card state machine (R78 to R83), the IIe and
display switches (R84 to R86), the IIe status bits (R88) and the side effects of a bus cycle (R87). -/

namespace Sys2Proof.Machine

/-- The index of a switch (20_memory.md R77). -/
def Switch.index : Switch → Nat
  | .lcBank1 => 0
  | .lcReadRam => 1
  | .lcWriteRam => 2
  | .lcPrewrite => 3
  | .store80 => 4
  | .ramrd => 5
  | .ramwrt => 6
  | .altzp => 7
  | .col80 => 8
  | .altcharset => 9
  | .text => 10
  | .mixed => 11
  | .page2 => 12
  | .hires => 13
  | .intcxrom => 14
  | .slotc3rom => 15

/-- The switches in index order (20_memory.md R77). -/
def Switch.all : List Switch := [.lcBank1, .lcReadRam, .lcWriteRam, .lcPrewrite, .store80, .ramrd, .ramwrt, .altzp, .col80,
  .altcharset, .text, .mixed, .page2, .hires, .intcxrom, .slotc3rom]

/-- The switch of an index, none outside 0..15 (20_memory.md R76). -/
def Switch.ofIndex (f : Nat) : Option Switch := Switch.all[f]?

/-- The language-card class of 20_memory.md R77: the flags that survive reset. -/
def Switch.isLanguageCard : Switch → Bool
  | .lcBank1 | .lcReadRam | .lcWriteRam | .lcPrewrite => true
  | _ => false

/-- `get(f)` (20_memory.md R74). -/
def Registry.get (r : Registry) : Switch → Bool
  | .lcBank1 => r.lcBank1
  | .lcReadRam => r.lcReadRam
  | .lcWriteRam => r.lcWriteRam
  | .lcPrewrite => r.lcPrewrite
  | .store80 => r.store80
  | .ramrd => r.ramrd
  | .ramwrt => r.ramwrt
  | .altzp => r.altzp
  | .col80 => r.col80
  | .altcharset => r.altcharset
  | .text => r.text
  | .mixed => r.mixed
  | .page2 => r.page2
  | .hires => r.hires
  | .intcxrom => r.intcxrom
  | .slotc3rom => r.slotc3rom

/-- `set(f, b)` on the registry (20_memory.md R74). -/
def Registry.set (r : Registry) (f : Switch) (b : Bool) : Registry :=
  match f with
  | .lcBank1 => { r with lcBank1 := b }
  | .lcReadRam => { r with lcReadRam := b }
  | .lcWriteRam => { r with lcWriteRam := b }
  | .lcPrewrite => { r with lcPrewrite := b }
  | .store80 => { r with store80 := b }
  | .ramrd => { r with ramrd := b }
  | .ramwrt => { r with ramwrt := b }
  | .altzp => { r with altzp := b }
  | .col80 => { r with col80 := b }
  | .altcharset => { r with altcharset := b }
  | .text => { r with text := b }
  | .mixed => { r with mixed := b }
  | .page2 => { r with page2 := b }
  | .hires => { r with hires := b }
  | .intcxrom => { r with intcxrom := b }
  | .slotc3rom => { r with slotc3rom := b }

/-- The silent `set(f, b)` (20_memory.md R74). -/
def setSilent (f : Switch) (b : Bool) (s : State) : State := { s with sw := s.sw.set f b }

/-- `set_and_notify(f, b)` (20_memory.md R74, R75): an entry is appended only when the value changes. -/
def setAndNotify (f : Switch) (b : Bool) (s : State) : State :=
  if s.sw.get f = b then s
  else { s with sw := s.sw.set f b, swlog := s.swlog ++ [⟨s.cycles, f, b⟩] }

/-- `raise ModelFault(kind)` (60_exceptions.md R322): set the fault mark. -/
def raiseFault (f : Fault) (s : State) : State := { s with fault := some f }

/-- The indexed primitive `get(f)` as an environment calls it: an index outside 0..15 raises (20_memory.md R76). -/
def registryGet (f : Nat) (s : State) : Except State Bool :=
  match Switch.ofIndex f with
  | some g => .ok (s.sw.get g)
  | none => .error (raiseFault .badSwitchIndex s)

/-- The indexed primitive `set(f, b)` (20_memory.md R74, R76). -/
def registrySet (f : Nat) (b : Bool) (s : State) : State :=
  match Switch.ofIndex f with
  | some g => setSilent g b s
  | none => raiseFault .badSwitchIndex s

/-- The indexed primitive `set_and_notify(f, b)` (20_memory.md R74, R76). -/
def registrySetAndNotify (f : Nat) (b : Bool) (s : State) : State :=
  match Switch.ofIndex f with
  | some g => setAndNotify g b s
  | none => raiseFault .badSwitchIndex s

/-- The write-enable and prewrite part of a language-card access (20_memory.md R81). -/
def lcWriteEnable (addr : Word) (isRead : Bool) (s : State) : State :=
  if addr.getLsbD 0 = false then
    setAndNotify .lcPrewrite false (setAndNotify .lcWriteRam false s)
  else if isRead then
    setAndNotify .lcPrewrite true (if s.sw.lcPrewrite then setAndNotify .lcWriteRam true s else s)
  else
    setAndNotify .lcPrewrite false s

/-- One language-card access: bank select, read select, write enable, in that order (20_memory.md R79 to R82). -/
def lcAccess (addr : Word) (isRead : Bool) (s : State) : State :=
  lcWriteEnable addr isRead
    (setAndNotify .lcReadRam (addr.getLsbD 0 == addr.getLsbD 1)
      (setAndNotify .lcBank1 (addr.getLsbD 3) s))

/-- The list `F` of 20_memory.md R84. -/
def iieSwitch (k : Nat) : Switch :=
  match k with
  | 0 => .store80
  | 1 => .ramrd
  | 2 => .ramwrt
  | 3 => .intcxrom
  | 4 => .altzp
  | 5 => .slotc3rom
  | 6 => .col80
  | _ => .altcharset

/-- The list `G` of 20_memory.md R85. -/
def displaySwitch (k : Nat) : Switch :=
  match k with
  | 0 => .text
  | 1 => .mixed
  | 2 => .page2
  | _ => .hires

/-- A write in 0xC000-0xC00F on an IIE (20_memory.md R84): at 0xC000 + 2k + b, k is bits 3 to 1 of the address. -/
def iieWrite (addr : Word) (s : State) : State :=
  setAndNotify (iieSwitch (addr.toNat / 2 % 8)) (addr.getLsbD 0) s

/-- An access in 0xC050-0xC057 (20_memory.md R85): at 0xC050 + 2k + b, k is bits 2 and 1 of the address. -/
def displayAccess (addr : Word) (s : State) : State :=
  setAndNotify (displaySwitch (addr.toNat / 2 % 4)) (addr.getLsbD 0) s

/-- Is `addr` in the inclusive range. -/
def inRange (lo addr hi : Word) : Bool := decide (lo ≤ addr) && decide (addr ≤ hi)

/-- `sideEffects(addr, access)` of one bus cycle (20_memory.md R68, R69, R78 to R89): the three decoded ranges are disjoint
and every other address has none. -/
def sideEffects (addr : Word) (isRead : Bool) (s : State) : State :=
  if inRange 0xC080 addr 0xC08F then (if s.cfg.lcPresent then lcAccess addr isRead s else s)
  else if inRange 0xC050 addr 0xC057 then displayAccess addr s
  else if inRange 0xC000 addr 0xC00F then
    (if s.cfg.machine = .iie ∧ isRead = false then iieWrite addr s else s)
  else s

/-- Bit 7 of an IIe status read at 0xC011 + j (20_memory.md R88), none where the environment supplies it: outside
0xC011-0xC01F and at the vertical-blank address 0xC019. -/
def statusBit (addr : Word) (sw : Registry) : Option Bool :=
  match addr.toNat with
  | 0xC011 => some (!sw.lcBank1)
  | 0xC012 => some sw.lcReadRam
  | 0xC013 => some sw.ramrd
  | 0xC014 => some sw.ramwrt
  | 0xC015 => some sw.intcxrom
  | 0xC016 => some sw.altzp
  | 0xC017 => some sw.slotc3rom
  | 0xC018 => some sw.store80
  | 0xC01A => some sw.text
  | 0xC01B => some sw.mixed
  | 0xC01C => some sw.page2
  | 0xC01D => some sw.hires
  | 0xC01E => some sw.altcharset
  | 0xC01F => some sw.col80
  | _ => none

/-- `slotsRead(addr)` given the environment's byte `io` (20_memory.md R72, R88). -/
def slotsRead (cfg : Config) (addr : Word) (sw : Registry) (io : Byte) : Byte :=
  match cfg.machine, statusBit addr sw with
  | .iie, some b => BitVec.ofBool b ++ io.extractLsb' 0 7
  | _, _ => io

/-- `switchReset()` on the registry (70_reset_and_hazards.md R352): the language-card flags keep their values, TEXT is set,
the other eleven are cleared; silent, so nothing is logged (R353). -/
def Registry.switchReset (r : Registry) : Registry where
  lcBank1 := r.lcBank1
  lcReadRam := r.lcReadRam
  lcWriteRam := r.lcWriteRam
  lcPrewrite := r.lcPrewrite
  store80 := false
  ramrd := false
  ramwrt := false
  altzp := false
  col80 := false
  altcharset := false
  text := true
  mixed := false
  page2 := false
  hires := false
  intcxrom := false
  slotc3rom := false

end Sys2Proof.Machine
end

