-- ==== Sys2Proof/Machine/Ops.lean ====
section
/-! DEFINITION. The named operations over registers and memory: bus cycles (20_memory.md R68, R69), fetch, push and pull
(00_scope.md R12), the entry sequence shared by BRK, the undocumented opcodes and IRQ (60_exceptions.md R313), the return
from it (44_control_flow.md R262), IRQ entry (R312) and the reset sequence (70_reset_and_hazards.md R351). -/

namespace Sys2Proof.Machine

/-! ### Register updates -/

/-- `A <- v`. -/
def State.setA (s : State) (v : Byte) : State := { s with a := v }

/-- `X <- v`. -/
def State.setX (s : State) (v : Byte) : State := { s with x := v }

/-- `Y <- v`. -/
def State.setY (s : State) (v : Byte) : State := { s with y := v }

/-- `S <- v`. -/
def State.setSp (s : State) (v : Byte) : State := { s with sp := v }

/-- `PC <- target`. -/
def State.setPc (s : State) (target : Word) : State := { s with pc := target }

/-- Write the stored flags. -/
def State.setFlags (s : State) (p : Flags) : State := { s with p := p }

/-- `setNZ(v)` (00_scope.md R12). -/
def State.setNZ (s : State) (v : Byte) : State := s.setFlags (s.p.setNZ v)

/-! ### The event path -/

/-- The byte `ioRead(addr, history)` supplies in this state: the next draw, or the free value when none is held (log 2). -/
def ioByte (addr : Word) (s : State) : Byte :=
  match s.ioDraws with
  | v :: _ => v
  | [] => Config.ioRead addr s.buslog

/-- Whether a read cycle takes a draw: at a hooked address and at every SLOTS address (20_memory.md R68, R72, R88). -/
def readDraws (addr : Word) (s : State) : Bool :=
  s.cfg.isHooked addr || (resolve s.cfg addr false s.sw).kind == .slots

/-- The byte a read resolution holds in storage; SLOTS hold none and give `io` (20_memory.md R66, R67, R72). -/
def storageByte (s : State) (r : Resolution) (io : Byte) : Byte :=
  match r.kind with
  | .slots => io
  | .rom => s.rom.read r.offset
  | .main | .lcBank1 | .lcBank2 | .lcOther => s.ram.read (physOf s.cfg r)

/-- The value of a read cycle (20_memory.md R68): the draw at a hooked address, else the device, ROM or RAM byte. -/
def readValue (addr : Word) (s : State) : Byte :=
  if s.cfg.isHooked addr then ioByte addr s
  else storageByte s (resolve s.cfg addr false s.sw) (slotsRead s.cfg addr s.sw (ioByte addr s))

/-- The PEEK record of a read cycle (20_memory.md R68, R70). -/
def peekEvent (addr : Word) (s : State) : BusEvent :=
  ⟨s.cycles, .peek, addr, resolve s.cfg addr false s.sw, readValue addr s, s.cfg.isHooked addr, false⟩

/-- One more bus cycle has been made (10_state.md R34). -/
def State.tick (s : State) : State := { s with cycles := s.cycles + 1 }

/-- Append a bus event (10_state.md R33). -/
def State.logEvent (s : State) (e : BusEvent) : State := { s with buslog := s.buslog ++ [e] }

/-- The state after a read cycle (20_memory.md R68): the event, then the switch side effects, then the cycle count. -/
def afterRead (addr : Word) (s : State) : State :=
  let s1 := { s with ioDraws := if readDraws addr s then s.ioDraws.tail else s.ioDraws }
  (sideEffects addr true (s1.logEvent (peekEvent addr s))).tick

/-- `MemRead(addr, 1)` (20_memory.md R68). -/
def memRead (addr : Word) (s : State) : Byte × State := (readValue addr s, afterRead addr s)

/-- `DummyRead(addr)` (00_scope.md R11): a whole read cycle whose value is not used. -/
def dummyRead (addr : Word) (s : State) : State := afterRead addr s

/-- Whether `ioSuppress` suppresses this write: only at a hooked address, by the next draw or the free value (log 3). -/
def writeSuppressed (addr : Word) (v : Byte) (s : State) : Bool :=
  s.cfg.isHooked addr &&
    match s.suppressDraws with
    | b :: _ => b
    | [] => Config.ioSuppress addr v s.buslog

/-- The POKE record of a write cycle (20_memory.md R69, R70). -/
def pokeEvent (addr : Word) (v : Byte) (s : State) : BusEvent :=
  ⟨s.cycles, .poke, addr, resolve s.cfg addr true s.sw, v, false, writeSuppressed addr v s⟩

/-- The RAM after a write cycle (20_memory.md R65, R66, R67, R69, R72). -/
def storedRam (addr : Word) (v : Byte) (s : State) : Memory :=
  match ramTarget s.cfg (resolve s.cfg addr true s.sw) with
  | none => s.ram
  | some k => if writeSuppressed addr v s then s.ram else s.ram.write k v

/-- `MemWrite(addr, 1, v)` (20_memory.md R69): the event, the storage effect, the switch side effects, the cycle count. -/
def memWrite (addr : Word) (v : Byte) (s : State) : State :=
  let s1 := { s with
    suppressDraws := if s.cfg.isHooked addr then s.suppressDraws.tail else s.suppressDraws
    ram := storedRam addr v s }
  (sideEffects addr false (s1.logEvent (pokeEvent addr v s))).tick

/-- The sneaky read (20_memory.md R73): the storage byte with no effect at all; at a SLOTS address an unspecified byte. -/
def sneakyRead (addr : Word) (s : State) : Byte :=
  storageByte s (resolve s.cfg addr false s.sw) (Config.sneakySlot addr s.buslog)

/-! ### Fetch and stack -/

/-- `fetch()` (00_scope.md R12). -/
def fetch (s : State) : Byte × State :=
  let r := memRead s.pc s
  (r.1, r.2.setPc (s.pc + 1))

/-- The stack address `0x0100 | S` (10_state.md R23). -/
def stackAddr (sp : Byte) : Word := 0x0100 ||| zext16 sp

/-- `push(v)` (00_scope.md R12). -/
def push (v : Byte) (s : State) : State :=
  (memWrite (stackAddr s.sp) v s).setSp (s.sp - 1)

/-- `pull()` (00_scope.md R12). -/
def pull (s : State) : Byte × State :=
  memRead (stackAddr (s.sp + 1)) (s.setSp (s.sp + 1))

/-! ### Exception entry and return -/

/-- Read a vector, low byte first, and jump through it (60_exceptions.md R313, c6 and c7). -/
def jumpThrough (vector : Word) (s : State) : State :=
  let lo := memRead vector s
  let hi := memRead (vector + 1) lo.2
  hi.2.setPc (wordOf hi.1 lo.1)

/-- Push the PC high byte first, then P with the given B bit, and set I (60_exceptions.md R313, c3 to c5). -/
def saveContext (pushedPc : Word) (b : Bool) (s : State) : State :=
  let s1 := push (hiByte pushedPc) s
  let s2 := push (loByte pushedPc) s1
  let s3 := push (packP b s2.p) s2
  s3.setFlags { s3.p with i := true }

/-- `enter(vector, pushedPC, bflag)` (60_exceptions.md R313): taking an exception. -/
def enter (vector pushedPc : Word) (b : Bool) (s : State) : State :=
  jumpThrough vector (saveContext pushedPc b s)

/-- Return from an exception (44_control_flow.md R262, c4 to c6): pull P, then PC. -/
def leave (s : State) : State :=
  let p := pull s
  let lo := pull (p.2.setFlags (unpackP p.1))
  let hi := pull lo.2
  hi.2.setPc (wordOf hi.1 lo.1)

/-- The IRQ/BRK vector (60_exceptions.md R310). -/
def irqVector : Word := 0xFFFE

/-- The RESET vector (60_exceptions.md R310). -/
def resetVector : Word := 0xFFFC

/-- The BRK sequence from c2 on, shared with the undocumented opcodes (44_control_flow.md R263; 46_illegal_opcodes.md R300):
the second byte is fetched and discarded, and opcode address + 2 is pushed with B = 1. -/
def breakEntry (s : State) : State :=
  let s1 := (fetch s).2
  enter irqVector s1.pc true s1

/-- The IRQ entry (60_exceptions.md R312): two discarded reads at PC, then the entry with B = 0. -/
def irqEntry (s : State) : State :=
  let s1 := dummyRead s.pc (dummyRead s.pc s)
  enter irqVector s.pc false s1

/-- A fake push of the reset sequence: a stack read, then S decremented (70_reset_and_hazards.md R351, r4 to r6). -/
def fakePush (s : State) : State := (dummyRead (stackAddr s.sp) s).setSp (s.sp - 1)

/-- `resetSequence()` up to its vector reads (70_reset_and_hazards.md R351): the silent switch reset, three reads at PC
(r1 to r3), three fake pushes (r4 to r6), I set. -/
def beforeResetVector (s : State) : State :=
  let s0 := { s with sw := s.sw.switchReset }
  let s3 := dummyRead s.pc (dummyRead s.pc (dummyRead s.pc s0))
  let s6 := fakePush (fakePush (fakePush s3))
  s6.setFlags { s6.p with i := true }

/-- `resetSequence()` (70_reset_and_hazards.md R351): its first six cycles, then the jump through the reset vector (r7 and
r8). -/
def resetSequence (s : State) : State := jumpThrough resetVector (beforeResetVector s)

end Sys2Proof.Machine
end

