-- ==== Sys2Proof/Machine/Operands.lean ====
section
/-! DEFINITION. Every operand form with its bus sequence: the read, write and RMW classes of 40_addressing.md R140 in the modes
of R142 to R149, as the helpers `ReadOp`, `WriteOp` and `RMWOp` of R157, and the sequences of the implied, relative and
indirect modes. The operand bytes have been fetched when these begin (log 15), so the first cycle here is the one after
the last operand fetch. -/

namespace Sys2Proof.Machine

/-- The operand of a read-class instruction (40_addressing.md R143 to R149). -/
inductive ReadMode where
  | imm (v : Byte)
  | zp (p : Byte)
  | zpx (p : Byte)
  | zpy (p : Byte)
  | abs (addr : Word)
  | abx (base : Word)
  | aby (base : Word)
  | izx (p : Byte)
  | izy (p : Byte)
  deriving DecidableEq, Repr

/-- The operand of a write-class instruction (40_addressing.md R144 to R149). -/
inductive WriteMode where
  | zp (p : Byte)
  | zpx (p : Byte)
  | zpy (p : Byte)
  | abs (addr : Word)
  | abx (base : Word)
  | aby (base : Word)
  | izx (p : Byte)
  | izy (p : Byte)
  deriving DecidableEq, Repr

/-- The operand of an RMW-class instruction, the accumulator form included (40_addressing.md R153, R157). -/
inductive RmwMode where
  | acc
  | zp (p : Byte)
  | zpx (p : Byte)
  | abs (addr : Word)
  | abx (base : Word)
  deriving DecidableEq, Repr

/-- The effective address of an indexed operand: `base +16 zext_16(idx)` (40_addressing.md R146). -/
def indexed (base : Word) (idx : Byte) : Word := base + zext16 idx

/-- The unfixed address `hi(base) ++ lo(result)` (40_addressing.md R141). -/
def unfixed (base : Word) (idx : Byte) : Word := wordOf (hiByte base) (loByte base + idx)

/-- Read a zero-page pointer, low byte first, the high byte wrapping within page 0 (00_scope.md R11, `Read16zp`). -/
def readPointer (q : Byte) (s : State) : Word × State :=
  let lo := memRead (zext16 q) s
  let hi := memRead (zext16 (q + 1)) lo.2
  (wordOf hi.1 lo.1, hi.2)

/-- The pointer of `(zp,X)`: a read of the unindexed address, then the pointer at `p +8 X` (40_addressing.md R148). -/
def readPointerX (p : Byte) (s : State) : Word × State :=
  readPointer (p + s.x) (dummyRead (zext16 p) s)

/-- The read of an indexed operand: the unfixed address, then the effective address if a page is crossed
(40_addressing.md R146, R149). -/
def readIndexed (base : Word) (idx : Byte) (s : State) : Byte × State :=
  let r := memRead (unfixed base idx) s
  if unfixed base idx ≠ indexed base idx then memRead (indexed base idx) r.2 else r

/-- `ReadOp(mode)` (40_addressing.md R157). -/
def readOp (m : ReadMode) (s : State) : Byte × State :=
  match m with
  | .imm v => (v, s)
  | .zp p => memRead (zext16 p) s
  | .zpx p => memRead (zext16 (p + s.x)) (dummyRead (zext16 p) s)
  | .zpy p => memRead (zext16 (p + s.y)) (dummyRead (zext16 p) s)
  | .abs addr => memRead addr s
  | .abx base => readIndexed base s.x s
  | .aby base => readIndexed base s.y s
  | .izx p =>
    let ea := readPointerX p s
    memRead ea.1 ea.2
  | .izy p =>
    let base := readPointer p s
    readIndexed base.1 s.y base.2

/-- The cycles of a write-class operand before its write, and the effective address (40_addressing.md R144, R145, R147 to
R149): an indexed form always reads the unfixed address. -/
def writeAddress (m : WriteMode) (s : State) : Word × State :=
  match m with
  | .zp p => (zext16 p, s)
  | .zpx p => (zext16 (p + s.x), dummyRead (zext16 p) s)
  | .zpy p => (zext16 (p + s.y), dummyRead (zext16 p) s)
  | .abs addr => (addr, s)
  | .abx base => (indexed base s.x, dummyRead (unfixed base s.x) s)
  | .aby base => (indexed base s.y, dummyRead (unfixed base s.y) s)
  | .izx p => readPointerX p s
  | .izy p =>
    let base := readPointer p s
    (indexed base.1 s.y, dummyRead (unfixed base.1 s.y) base.2)

/-- `WriteOp(mode, value)` (40_addressing.md R157). -/
def writeOp (m : WriteMode) (v : Byte) (s : State) : State :=
  let ea := writeAddress m s
  memWrite ea.1 v ea.2

/-- Read, dummy write of the unmodified value, write of the result (40_addressing.md R152). -/
def modify (ea : Word) (f : Byte → Byte) (s : State) : Byte × State :=
  let r := memRead ea s
  (r.1, memWrite ea (f r.1) (memWrite ea r.1 r.2))

/-- The cycles of an RMW memory operand before its read, and the effective address (40_addressing.md R144, R145, R147). -/
def rmwAddress (m : RmwMode) (s : State) : Option (Word × State) :=
  match m with
  | .acc => none
  | .zp p => some (zext16 p, s)
  | .zpx p => some (zext16 (p + s.x), dummyRead (zext16 p) s)
  | .abs addr => some (addr, s)
  | .abx base => some (indexed base s.x, dummyRead (unfixed base s.x) s)

/-- `RMWOp(mode, f)` (40_addressing.md R157): the value read and the state with `f` of it written; for `A` the read of the
byte after the opcode (R142) and `A <- f(A)`. -/
def rmwOp (m : RmwMode) (f : Byte → Byte) (s : State) : Byte × State :=
  match rmwAddress m s with
  | none => (s.a, (dummyRead s.pc s).setA (f s.a))
  | some (ea, s1) => modify ea f s1

/-- The c2 cycle of an implied-mode instruction (40_addressing.md R142). -/
def impliedCycle (s : State) : State := dummyRead s.pc s

/-- The relative mode from c3 on (40_addressing.md R151): PC holds the address of the next instruction. -/
def branchIf (cond : Bool) (d : Byte) (s : State) : State :=
  if cond then
    let t := s.pc + sext16 d
    let s1 := dummyRead s.pc s
    let s2 := if hiByte t ≠ hiByte s.pc then dummyRead (wordOf (hiByte s.pc) (loByte t)) s1 else s1
    s2.setPc t
  else s

/-- The absolute-indirect mode from c4 on, with the page-wrap bug (40_addressing.md R150). -/
def readIndirect (ptr : Word) (s : State) : Word × State :=
  let tl := memRead ptr s
  let th := memRead (wordOf (hiByte ptr) (loByte ptr + 1)) tl.2
  (wordOf th.1 tl.1, th.2)

end Sys2Proof.Machine
end

