-- ==== Sys2Proof/Machine/Arithmetic.lean ====
section
/-! DEFINITION. Add, subtract, compare, increment and decrement (42_arithmetic.md R204 to R217). -/

namespace Sys2Proof.Machine

/-- ADC (R204): the binary or the decimal adder as D says. -/
def addToA (m : ReadMode) (s : State) : State :=
  let r := readOp m s
  let sum := if s.p.d then adcDec s.a r.1 s.p.c else adcBin s.a r.1 s.p.c
  (r.2.setA sum.result).setFlags (r.2.p.setAlu sum)

/-- SBC (R207): the binary or the decimal subtracter as D says. -/
def subtractFromA (m : ReadMode) (s : State) : State :=
  let r := readOp m s
  let diff := if s.p.d then sbcDec s.a r.1 s.p.c else sbcBin s.a r.1 s.p.c
  (r.2.setA diff.result).setFlags (r.2.p.setAlu diff)

/-- `m <- ReadOp(mode); (C, Z, N) <- cmp(reg, m)` (R206, R209 to R211). -/
def compareWith (reg : Byte) (m : ReadMode) (s : State) : State :=
  let r := readOp m s
  r.2.setFlags (r.2.p.setCompare reg r.1)

/-- `(v, r) <- RMWOp(mode, f); setNZ(r)` (R212, R213). -/
def stepMemory (m : RmwMode) (f : Byte → Byte) (s : State) : State :=
  let r := rmwOp m f s
  r.2.setNZ (f r.1)

/-- `ADC (zp,X)`, opcode 0x61 (R204). -/
def execAdcIzx (p : Byte) (s : State) : Host.Outcome State Fault Refusal :=
  .next (addToA (.izx p) s)

/-- `ADC zp`, opcode 0x65 (R204). -/
def execAdcZp (p : Byte) (s : State) : Host.Outcome State Fault Refusal :=
  .next (addToA (.zp p) s)

/-- `ADC #`, opcode 0x69 (R204). -/
def execAdcImm (v : Byte) (s : State) : Host.Outcome State Fault Refusal :=
  .next (addToA (.imm v) s)

/-- `ADC abs`, opcode 0x6D (R204). -/
def execAdcAbs (addr : Word) (s : State) : Host.Outcome State Fault Refusal :=
  .next (addToA (.abs addr) s)

/-- `ADC (zp),Y`, opcode 0x71 (R204). -/
def execAdcIzy (p : Byte) (s : State) : Host.Outcome State Fault Refusal :=
  .next (addToA (.izy p) s)

/-- `ADC zp,X`, opcode 0x75 (R204). -/
def execAdcZpx (p : Byte) (s : State) : Host.Outcome State Fault Refusal :=
  .next (addToA (.zpx p) s)

/-- `ADC abs,Y`, opcode 0x79 (R204). -/
def execAdcAby (base : Word) (s : State) : Host.Outcome State Fault Refusal :=
  .next (addToA (.aby base) s)

/-- `ADC abs,X`, opcode 0x7D (R204). -/
def execAdcAbx (base : Word) (s : State) : Host.Outcome State Fault Refusal :=
  .next (addToA (.abx base) s)

/-- `SBC (zp,X)`, opcode 0xE1 (R207). -/
def execSbcIzx (p : Byte) (s : State) : Host.Outcome State Fault Refusal :=
  .next (subtractFromA (.izx p) s)

/-- `SBC zp`, opcode 0xE5 (R207). -/
def execSbcZp (p : Byte) (s : State) : Host.Outcome State Fault Refusal :=
  .next (subtractFromA (.zp p) s)

/-- `SBC #`, opcode 0xE9 (R207). -/
def execSbcImm (v : Byte) (s : State) : Host.Outcome State Fault Refusal :=
  .next (subtractFromA (.imm v) s)

/-- `SBC abs`, opcode 0xED (R207). -/
def execSbcAbs (addr : Word) (s : State) : Host.Outcome State Fault Refusal :=
  .next (subtractFromA (.abs addr) s)

/-- `SBC (zp),Y`, opcode 0xF1 (R207). -/
def execSbcIzy (p : Byte) (s : State) : Host.Outcome State Fault Refusal :=
  .next (subtractFromA (.izy p) s)

/-- `SBC zp,X`, opcode 0xF5 (R207). -/
def execSbcZpx (p : Byte) (s : State) : Host.Outcome State Fault Refusal :=
  .next (subtractFromA (.zpx p) s)

/-- `SBC abs,Y`, opcode 0xF9 (R207). -/
def execSbcAby (base : Word) (s : State) : Host.Outcome State Fault Refusal :=
  .next (subtractFromA (.aby base) s)

/-- `SBC abs,X`, opcode 0xFD (R207). -/
def execSbcAbx (base : Word) (s : State) : Host.Outcome State Fault Refusal :=
  .next (subtractFromA (.abx base) s)

/-- `CMP (zp,X)`, opcode 0xC1 (R209). -/
def execCmpIzx (p : Byte) (s : State) : Host.Outcome State Fault Refusal :=
  .next (compareWith s.a (.izx p) s)

/-- `CMP zp`, opcode 0xC5 (R209). -/
def execCmpZp (p : Byte) (s : State) : Host.Outcome State Fault Refusal :=
  .next (compareWith s.a (.zp p) s)

/-- `CMP #`, opcode 0xC9 (R209). -/
def execCmpImm (v : Byte) (s : State) : Host.Outcome State Fault Refusal :=
  .next (compareWith s.a (.imm v) s)

/-- `CMP abs`, opcode 0xCD (R209). -/
def execCmpAbs (addr : Word) (s : State) : Host.Outcome State Fault Refusal :=
  .next (compareWith s.a (.abs addr) s)

/-- `CMP (zp),Y`, opcode 0xD1 (R209). -/
def execCmpIzy (p : Byte) (s : State) : Host.Outcome State Fault Refusal :=
  .next (compareWith s.a (.izy p) s)

/-- `CMP zp,X`, opcode 0xD5 (R209). -/
def execCmpZpx (p : Byte) (s : State) : Host.Outcome State Fault Refusal :=
  .next (compareWith s.a (.zpx p) s)

/-- `CMP abs,Y`, opcode 0xD9 (R209). -/
def execCmpAby (base : Word) (s : State) : Host.Outcome State Fault Refusal :=
  .next (compareWith s.a (.aby base) s)

/-- `CMP abs,X`, opcode 0xDD (R209). -/
def execCmpAbx (base : Word) (s : State) : Host.Outcome State Fault Refusal :=
  .next (compareWith s.a (.abx base) s)

/-- `CPX #`, opcode 0xE0 (R210). -/
def execCpxImm (v : Byte) (s : State) : Host.Outcome State Fault Refusal :=
  .next (compareWith s.x (.imm v) s)

/-- `CPX zp`, opcode 0xE4 (R210). -/
def execCpxZp (p : Byte) (s : State) : Host.Outcome State Fault Refusal :=
  .next (compareWith s.x (.zp p) s)

/-- `CPX abs`, opcode 0xEC (R210). -/
def execCpxAbs (addr : Word) (s : State) : Host.Outcome State Fault Refusal :=
  .next (compareWith s.x (.abs addr) s)

/-- `CPY #`, opcode 0xC0 (R211). -/
def execCpyImm (v : Byte) (s : State) : Host.Outcome State Fault Refusal :=
  .next (compareWith s.y (.imm v) s)

/-- `CPY zp`, opcode 0xC4 (R211). -/
def execCpyZp (p : Byte) (s : State) : Host.Outcome State Fault Refusal :=
  .next (compareWith s.y (.zp p) s)

/-- `CPY abs`, opcode 0xCC (R211). -/
def execCpyAbs (addr : Word) (s : State) : Host.Outcome State Fault Refusal :=
  .next (compareWith s.y (.abs addr) s)

/-- `INC zp`, opcode 0xE6 (R212). -/
def execIncZp (p : Byte) (s : State) : Host.Outcome State Fault Refusal :=
  .next (stepMemory (.zp p) (fun v => v + 1) s)

/-- `INC abs`, opcode 0xEE (R212). -/
def execIncAbs (addr : Word) (s : State) : Host.Outcome State Fault Refusal :=
  .next (stepMemory (.abs addr) (fun v => v + 1) s)

/-- `INC zp,X`, opcode 0xF6 (R212). -/
def execIncZpx (p : Byte) (s : State) : Host.Outcome State Fault Refusal :=
  .next (stepMemory (.zpx p) (fun v => v + 1) s)

/-- `INC abs,X`, opcode 0xFE (R212). -/
def execIncAbx (base : Word) (s : State) : Host.Outcome State Fault Refusal :=
  .next (stepMemory (.abx base) (fun v => v + 1) s)

/-- `DEC zp`, opcode 0xC6 (R213). -/
def execDecZp (p : Byte) (s : State) : Host.Outcome State Fault Refusal :=
  .next (stepMemory (.zp p) (fun v => v - 1) s)

/-- `DEC abs`, opcode 0xCE (R213). -/
def execDecAbs (addr : Word) (s : State) : Host.Outcome State Fault Refusal :=
  .next (stepMemory (.abs addr) (fun v => v - 1) s)

/-- `DEC zp,X`, opcode 0xD6 (R213). -/
def execDecZpx (p : Byte) (s : State) : Host.Outcome State Fault Refusal :=
  .next (stepMemory (.zpx p) (fun v => v - 1) s)

/-- `DEC abs,X`, opcode 0xDE (R213). -/
def execDecAbx (base : Word) (s : State) : Host.Outcome State Fault Refusal :=
  .next (stepMemory (.abx base) (fun v => v - 1) s)

/-- `INX`, opcode 0xE8 (R214). -/
def execInx (s : State) : Host.Outcome State Fault Refusal :=
  .next (((impliedCycle s).setX (s.x + 1)).setNZ (s.x + 1))

/-- `INY`, opcode 0xC8 (R215). -/
def execIny (s : State) : Host.Outcome State Fault Refusal :=
  .next (((impliedCycle s).setY (s.y + 1)).setNZ (s.y + 1))

/-- `DEX`, opcode 0xCA (R216). -/
def execDex (s : State) : Host.Outcome State Fault Refusal :=
  .next (((impliedCycle s).setX (s.x - 1)).setNZ (s.x - 1))

/-- `DEY`, opcode 0x88 (R217). -/
def execDey (s : State) : Host.Outcome State Fault Refusal :=
  .next (((impliedCycle s).setY (s.y - 1)).setNZ (s.y - 1))

end Sys2Proof.Machine
end

