-- ==== Sys2Proof/Machine/ControlFlow.lean ====
section
/-! DEFINITION. Branches, jumps, subroutines, RTI and BRK (44_control_flow.md R250 to R263). -/

namespace Sys2Proof.Machine

/-- `JMP ($hhll)` (R259; 40_addressing.md R150). -/
def jumpIndirect (ptr : Word) (s : State) : State :=
  let t := readIndirect ptr s
  t.2.setPc t.1

/-- JSR from c3 on (R260). PC is opcode address + 2: the two pushes save it, and c6 then reads the target's high byte from it,
so a push that overwrites the third byte changes the target (20_memory.md R96). The operand's own high byte, read when the
instruction was decoded, is not used (log 15). -/
def callSubroutine (target : Word) (s : State) : State :=
  let s1 := dummyRead (stackAddr s.sp) s
  let s2 := push (loByte s.pc) (push (hiByte s.pc) s1)
  let ph := memRead s2.pc s2
  ph.2.setPc (wordOf ph.1 (loByte target))

/-- RTS (R261): the pulled address plus one. -/
def returnFromSubroutine (s : State) : State :=
  let s1 := dummyRead (stackAddr s.sp) (impliedCycle s)
  let lo := pull s1
  let hi := pull lo.2
  (dummyRead (wordOf hi.1 lo.1) hi.2).setPc (wordOf hi.1 lo.1 + 1)

/-- RTI (R262): two dummy reads, then the return from an exception. -/
def returnFromInterrupt (s : State) : State :=
  leave (dummyRead (stackAddr s.sp) (impliedCycle s))

/-- `BPL rel`, opcode 0x10 (R256). -/
def execBpl (d : Byte) (s : State) : Host.Outcome State Fault Refusal :=
  .next (branchIf (!s.p.n) d s)

/-- `BMI rel`, opcode 0x30 (R254). -/
def execBmi (d : Byte) (s : State) : Host.Outcome State Fault Refusal :=
  .next (branchIf s.p.n d s)

/-- `BVC rel`, opcode 0x50 (R257). -/
def execBvc (d : Byte) (s : State) : Host.Outcome State Fault Refusal :=
  .next (branchIf (!s.p.v) d s)

/-- `BVS rel`, opcode 0x70 (R258). -/
def execBvs (d : Byte) (s : State) : Host.Outcome State Fault Refusal :=
  .next (branchIf s.p.v d s)

/-- `BCC rel`, opcode 0x90 (R251). -/
def execBcc (d : Byte) (s : State) : Host.Outcome State Fault Refusal :=
  .next (branchIf (!s.p.c) d s)

/-- `BCS rel`, opcode 0xB0 (R252). -/
def execBcs (d : Byte) (s : State) : Host.Outcome State Fault Refusal :=
  .next (branchIf s.p.c d s)

/-- `BNE rel`, opcode 0xD0 (R255). -/
def execBne (d : Byte) (s : State) : Host.Outcome State Fault Refusal :=
  .next (branchIf (!s.p.z) d s)

/-- `BEQ rel`, opcode 0xF0 (R253). -/
def execBeq (d : Byte) (s : State) : Host.Outcome State Fault Refusal :=
  .next (branchIf s.p.z d s)

/-- `JMP abs`, opcode 0x4C (R259). -/
def execJmpAbs (addr : Word) (s : State) : Host.Outcome State Fault Refusal :=
  .next (s.setPc addr)

/-- `JMP (abs)`, opcode 0x6C (R259). -/
def execJmpInd (ptr : Word) (s : State) : Host.Outcome State Fault Refusal :=
  .next (jumpIndirect ptr s)

/-- `JSR abs`, opcode 0x20 (R260). -/
def execJsr (addr : Word) (s : State) : Host.Outcome State Fault Refusal :=
  .next (callSubroutine addr s)

/-- `RTS`, opcode 0x60 (R261). -/
def execRts (s : State) : Host.Outcome State Fault Refusal :=
  .next (returnFromSubroutine s)

/-- `RTI`, opcode 0x40 (R262). -/
def execRti (s : State) : Host.Outcome State Fault Refusal :=
  .next (returnFromInterrupt s)

/-- `BRK`, opcode 0x00 (R263). -/
def execBrk (s : State) : Host.Outcome State Fault Refusal :=
  .next (breakEntry s)

end Sys2Proof.Machine
end

