-- ==== Sys2Proof/Machine/Illegal.lean ====
section
/-! DEFINITION. The 105 undocumented opcodes (46_illegal_opcodes.md R300): each runs the sequence of BRK, cycle for cycle. -/

namespace Sys2Proof.Machine

/-- Undocumented byte 0x02 (R300). -/
def execIll02 (s : State) : Host.Outcome State Fault Refusal := .next (breakEntry s)

/-- Undocumented byte 0x03 (R300). -/
def execIll03 (s : State) : Host.Outcome State Fault Refusal := .next (breakEntry s)

/-- Undocumented byte 0x04 (R300). -/
def execIll04 (s : State) : Host.Outcome State Fault Refusal := .next (breakEntry s)

/-- Undocumented byte 0x07 (R300). -/
def execIll07 (s : State) : Host.Outcome State Fault Refusal := .next (breakEntry s)

/-- Undocumented byte 0x0B (R300). -/
def execIll0B (s : State) : Host.Outcome State Fault Refusal := .next (breakEntry s)

/-- Undocumented byte 0x0C (R300). -/
def execIll0C (s : State) : Host.Outcome State Fault Refusal := .next (breakEntry s)

/-- Undocumented byte 0x0F (R300). -/
def execIll0F (s : State) : Host.Outcome State Fault Refusal := .next (breakEntry s)

/-- Undocumented byte 0x12 (R300). -/
def execIll12 (s : State) : Host.Outcome State Fault Refusal := .next (breakEntry s)

/-- Undocumented byte 0x13 (R300). -/
def execIll13 (s : State) : Host.Outcome State Fault Refusal := .next (breakEntry s)

/-- Undocumented byte 0x14 (R300). -/
def execIll14 (s : State) : Host.Outcome State Fault Refusal := .next (breakEntry s)

/-- Undocumented byte 0x17 (R300). -/
def execIll17 (s : State) : Host.Outcome State Fault Refusal := .next (breakEntry s)

/-- Undocumented byte 0x1A (R300). -/
def execIll1A (s : State) : Host.Outcome State Fault Refusal := .next (breakEntry s)

/-- Undocumented byte 0x1B (R300). -/
def execIll1B (s : State) : Host.Outcome State Fault Refusal := .next (breakEntry s)

/-- Undocumented byte 0x1C (R300). -/
def execIll1C (s : State) : Host.Outcome State Fault Refusal := .next (breakEntry s)

/-- Undocumented byte 0x1F (R300). -/
def execIll1F (s : State) : Host.Outcome State Fault Refusal := .next (breakEntry s)

/-- Undocumented byte 0x22 (R300). -/
def execIll22 (s : State) : Host.Outcome State Fault Refusal := .next (breakEntry s)

/-- Undocumented byte 0x23 (R300). -/
def execIll23 (s : State) : Host.Outcome State Fault Refusal := .next (breakEntry s)

/-- Undocumented byte 0x27 (R300). -/
def execIll27 (s : State) : Host.Outcome State Fault Refusal := .next (breakEntry s)

/-- Undocumented byte 0x2B (R300). -/
def execIll2B (s : State) : Host.Outcome State Fault Refusal := .next (breakEntry s)

/-- Undocumented byte 0x2F (R300). -/
def execIll2F (s : State) : Host.Outcome State Fault Refusal := .next (breakEntry s)

/-- Undocumented byte 0x32 (R300). -/
def execIll32 (s : State) : Host.Outcome State Fault Refusal := .next (breakEntry s)

/-- Undocumented byte 0x33 (R300). -/
def execIll33 (s : State) : Host.Outcome State Fault Refusal := .next (breakEntry s)

/-- Undocumented byte 0x34 (R300). -/
def execIll34 (s : State) : Host.Outcome State Fault Refusal := .next (breakEntry s)

/-- Undocumented byte 0x37 (R300). -/
def execIll37 (s : State) : Host.Outcome State Fault Refusal := .next (breakEntry s)

/-- Undocumented byte 0x3A (R300). -/
def execIll3A (s : State) : Host.Outcome State Fault Refusal := .next (breakEntry s)

/-- Undocumented byte 0x3B (R300). -/
def execIll3B (s : State) : Host.Outcome State Fault Refusal := .next (breakEntry s)

/-- Undocumented byte 0x3C (R300). -/
def execIll3C (s : State) : Host.Outcome State Fault Refusal := .next (breakEntry s)

/-- Undocumented byte 0x3F (R300). -/
def execIll3F (s : State) : Host.Outcome State Fault Refusal := .next (breakEntry s)

/-- Undocumented byte 0x42 (R300). -/
def execIll42 (s : State) : Host.Outcome State Fault Refusal := .next (breakEntry s)

/-- Undocumented byte 0x43 (R300). -/
def execIll43 (s : State) : Host.Outcome State Fault Refusal := .next (breakEntry s)

/-- Undocumented byte 0x44 (R300). -/
def execIll44 (s : State) : Host.Outcome State Fault Refusal := .next (breakEntry s)

/-- Undocumented byte 0x47 (R300). -/
def execIll47 (s : State) : Host.Outcome State Fault Refusal := .next (breakEntry s)

/-- Undocumented byte 0x4B (R300). -/
def execIll4B (s : State) : Host.Outcome State Fault Refusal := .next (breakEntry s)

/-- Undocumented byte 0x4F (R300). -/
def execIll4F (s : State) : Host.Outcome State Fault Refusal := .next (breakEntry s)

/-- Undocumented byte 0x52 (R300). -/
def execIll52 (s : State) : Host.Outcome State Fault Refusal := .next (breakEntry s)

/-- Undocumented byte 0x53 (R300). -/
def execIll53 (s : State) : Host.Outcome State Fault Refusal := .next (breakEntry s)

/-- Undocumented byte 0x54 (R300). -/
def execIll54 (s : State) : Host.Outcome State Fault Refusal := .next (breakEntry s)

/-- Undocumented byte 0x57 (R300). -/
def execIll57 (s : State) : Host.Outcome State Fault Refusal := .next (breakEntry s)

/-- Undocumented byte 0x5A (R300). -/
def execIll5A (s : State) : Host.Outcome State Fault Refusal := .next (breakEntry s)

/-- Undocumented byte 0x5B (R300). -/
def execIll5B (s : State) : Host.Outcome State Fault Refusal := .next (breakEntry s)

/-- Undocumented byte 0x5C (R300). -/
def execIll5C (s : State) : Host.Outcome State Fault Refusal := .next (breakEntry s)

/-- Undocumented byte 0x5F (R300). -/
def execIll5F (s : State) : Host.Outcome State Fault Refusal := .next (breakEntry s)

/-- Undocumented byte 0x62 (R300). -/
def execIll62 (s : State) : Host.Outcome State Fault Refusal := .next (breakEntry s)

/-- Undocumented byte 0x63 (R300). -/
def execIll63 (s : State) : Host.Outcome State Fault Refusal := .next (breakEntry s)

/-- Undocumented byte 0x64 (R300). -/
def execIll64 (s : State) : Host.Outcome State Fault Refusal := .next (breakEntry s)

/-- Undocumented byte 0x67 (R300). -/
def execIll67 (s : State) : Host.Outcome State Fault Refusal := .next (breakEntry s)

/-- Undocumented byte 0x6B (R300). -/
def execIll6B (s : State) : Host.Outcome State Fault Refusal := .next (breakEntry s)

/-- Undocumented byte 0x6F (R300). -/
def execIll6F (s : State) : Host.Outcome State Fault Refusal := .next (breakEntry s)

/-- Undocumented byte 0x72 (R300). -/
def execIll72 (s : State) : Host.Outcome State Fault Refusal := .next (breakEntry s)

/-- Undocumented byte 0x73 (R300). -/
def execIll73 (s : State) : Host.Outcome State Fault Refusal := .next (breakEntry s)

/-- Undocumented byte 0x74 (R300). -/
def execIll74 (s : State) : Host.Outcome State Fault Refusal := .next (breakEntry s)

/-- Undocumented byte 0x77 (R300). -/
def execIll77 (s : State) : Host.Outcome State Fault Refusal := .next (breakEntry s)

/-- Undocumented byte 0x7A (R300). -/
def execIll7A (s : State) : Host.Outcome State Fault Refusal := .next (breakEntry s)

/-- Undocumented byte 0x7B (R300). -/
def execIll7B (s : State) : Host.Outcome State Fault Refusal := .next (breakEntry s)

/-- Undocumented byte 0x7C (R300). -/
def execIll7C (s : State) : Host.Outcome State Fault Refusal := .next (breakEntry s)

/-- Undocumented byte 0x7F (R300). -/
def execIll7F (s : State) : Host.Outcome State Fault Refusal := .next (breakEntry s)

/-- Undocumented byte 0x80 (R300). -/
def execIll80 (s : State) : Host.Outcome State Fault Refusal := .next (breakEntry s)

/-- Undocumented byte 0x82 (R300). -/
def execIll82 (s : State) : Host.Outcome State Fault Refusal := .next (breakEntry s)

/-- Undocumented byte 0x83 (R300). -/
def execIll83 (s : State) : Host.Outcome State Fault Refusal := .next (breakEntry s)

/-- Undocumented byte 0x87 (R300). -/
def execIll87 (s : State) : Host.Outcome State Fault Refusal := .next (breakEntry s)

/-- Undocumented byte 0x89 (R300). -/
def execIll89 (s : State) : Host.Outcome State Fault Refusal := .next (breakEntry s)

/-- Undocumented byte 0x8B (R300). -/
def execIll8B (s : State) : Host.Outcome State Fault Refusal := .next (breakEntry s)

/-- Undocumented byte 0x8F (R300). -/
def execIll8F (s : State) : Host.Outcome State Fault Refusal := .next (breakEntry s)

/-- Undocumented byte 0x92 (R300). -/
def execIll92 (s : State) : Host.Outcome State Fault Refusal := .next (breakEntry s)

/-- Undocumented byte 0x93 (R300). -/
def execIll93 (s : State) : Host.Outcome State Fault Refusal := .next (breakEntry s)

/-- Undocumented byte 0x97 (R300). -/
def execIll97 (s : State) : Host.Outcome State Fault Refusal := .next (breakEntry s)

/-- Undocumented byte 0x9B (R300). -/
def execIll9B (s : State) : Host.Outcome State Fault Refusal := .next (breakEntry s)

/-- Undocumented byte 0x9C (R300). -/
def execIll9C (s : State) : Host.Outcome State Fault Refusal := .next (breakEntry s)

/-- Undocumented byte 0x9E (R300). -/
def execIll9E (s : State) : Host.Outcome State Fault Refusal := .next (breakEntry s)

/-- Undocumented byte 0x9F (R300). -/
def execIll9F (s : State) : Host.Outcome State Fault Refusal := .next (breakEntry s)

/-- Undocumented byte 0xA3 (R300). -/
def execIllA3 (s : State) : Host.Outcome State Fault Refusal := .next (breakEntry s)

/-- Undocumented byte 0xA7 (R300). -/
def execIllA7 (s : State) : Host.Outcome State Fault Refusal := .next (breakEntry s)

/-- Undocumented byte 0xAB (R300). -/
def execIllAB (s : State) : Host.Outcome State Fault Refusal := .next (breakEntry s)

/-- Undocumented byte 0xAF (R300). -/
def execIllAF (s : State) : Host.Outcome State Fault Refusal := .next (breakEntry s)

/-- Undocumented byte 0xB2 (R300). -/
def execIllB2 (s : State) : Host.Outcome State Fault Refusal := .next (breakEntry s)

/-- Undocumented byte 0xB3 (R300). -/
def execIllB3 (s : State) : Host.Outcome State Fault Refusal := .next (breakEntry s)

/-- Undocumented byte 0xB7 (R300). -/
def execIllB7 (s : State) : Host.Outcome State Fault Refusal := .next (breakEntry s)

/-- Undocumented byte 0xBB (R300). -/
def execIllBB (s : State) : Host.Outcome State Fault Refusal := .next (breakEntry s)

/-- Undocumented byte 0xBF (R300). -/
def execIllBF (s : State) : Host.Outcome State Fault Refusal := .next (breakEntry s)

/-- Undocumented byte 0xC2 (R300). -/
def execIllC2 (s : State) : Host.Outcome State Fault Refusal := .next (breakEntry s)

/-- Undocumented byte 0xC3 (R300). -/
def execIllC3 (s : State) : Host.Outcome State Fault Refusal := .next (breakEntry s)

/-- Undocumented byte 0xC7 (R300). -/
def execIllC7 (s : State) : Host.Outcome State Fault Refusal := .next (breakEntry s)

/-- Undocumented byte 0xCB (R300). -/
def execIllCB (s : State) : Host.Outcome State Fault Refusal := .next (breakEntry s)

/-- Undocumented byte 0xCF (R300). -/
def execIllCF (s : State) : Host.Outcome State Fault Refusal := .next (breakEntry s)

/-- Undocumented byte 0xD2 (R300). -/
def execIllD2 (s : State) : Host.Outcome State Fault Refusal := .next (breakEntry s)

/-- Undocumented byte 0xD3 (R300). -/
def execIllD3 (s : State) : Host.Outcome State Fault Refusal := .next (breakEntry s)

/-- Undocumented byte 0xD4 (R300). -/
def execIllD4 (s : State) : Host.Outcome State Fault Refusal := .next (breakEntry s)

/-- Undocumented byte 0xD7 (R300). -/
def execIllD7 (s : State) : Host.Outcome State Fault Refusal := .next (breakEntry s)

/-- Undocumented byte 0xDA (R300). -/
def execIllDA (s : State) : Host.Outcome State Fault Refusal := .next (breakEntry s)

/-- Undocumented byte 0xDB (R300). -/
def execIllDB (s : State) : Host.Outcome State Fault Refusal := .next (breakEntry s)

/-- Undocumented byte 0xDC (R300). -/
def execIllDC (s : State) : Host.Outcome State Fault Refusal := .next (breakEntry s)

/-- Undocumented byte 0xDF (R300). -/
def execIllDF (s : State) : Host.Outcome State Fault Refusal := .next (breakEntry s)

/-- Undocumented byte 0xE2 (R300). -/
def execIllE2 (s : State) : Host.Outcome State Fault Refusal := .next (breakEntry s)

/-- Undocumented byte 0xE3 (R300). -/
def execIllE3 (s : State) : Host.Outcome State Fault Refusal := .next (breakEntry s)

/-- Undocumented byte 0xE7 (R300). -/
def execIllE7 (s : State) : Host.Outcome State Fault Refusal := .next (breakEntry s)

/-- Undocumented byte 0xEB (R300). -/
def execIllEB (s : State) : Host.Outcome State Fault Refusal := .next (breakEntry s)

/-- Undocumented byte 0xEF (R300). -/
def execIllEF (s : State) : Host.Outcome State Fault Refusal := .next (breakEntry s)

/-- Undocumented byte 0xF2 (R300). -/
def execIllF2 (s : State) : Host.Outcome State Fault Refusal := .next (breakEntry s)

/-- Undocumented byte 0xF3 (R300). -/
def execIllF3 (s : State) : Host.Outcome State Fault Refusal := .next (breakEntry s)

/-- Undocumented byte 0xF4 (R300). -/
def execIllF4 (s : State) : Host.Outcome State Fault Refusal := .next (breakEntry s)

/-- Undocumented byte 0xF7 (R300). -/
def execIllF7 (s : State) : Host.Outcome State Fault Refusal := .next (breakEntry s)

/-- Undocumented byte 0xFA (R300). -/
def execIllFA (s : State) : Host.Outcome State Fault Refusal := .next (breakEntry s)

/-- Undocumented byte 0xFB (R300). -/
def execIllFB (s : State) : Host.Outcome State Fault Refusal := .next (breakEntry s)

/-- Undocumented byte 0xFC (R300). -/
def execIllFC (s : State) : Host.Outcome State Fault Refusal := .next (breakEntry s)

/-- Undocumented byte 0xFF (R300). -/
def execIllFF (s : State) : Host.Outcome State Fault Refusal := .next (breakEntry s)

end Sys2Proof.Machine
end

