-- ==== Sys2Proof/Machine/LoadStore.lean ====
section
/-! DEFINITION. Loads, stores and register transfers (41_load_store_transfer.md R180 to R191). -/

namespace Sys2Proof.Machine

/-- `v <- ReadOp(mode); A <- v; setNZ(v)` (R180). -/
def loadA (m : ReadMode) (s : State) : State :=
  let r := readOp m s
  (r.2.setA r.1).setNZ r.1

/-- `v <- ReadOp(mode); X <- v; setNZ(v)` (R181). -/
def loadX (m : ReadMode) (s : State) : State :=
  let r := readOp m s
  (r.2.setX r.1).setNZ r.1

/-- `v <- ReadOp(mode); Y <- v; setNZ(v)` (R182). -/
def loadY (m : ReadMode) (s : State) : State :=
  let r := readOp m s
  (r.2.setY r.1).setNZ r.1

/-- `LDA (zp,X)`, opcode 0xA1 (R180). -/
def execLdaIzx (p : Byte) (s : State) : Host.Outcome State Fault Refusal :=
  .next (loadA (.izx p) s)

/-- `LDA zp`, opcode 0xA5 (R180). -/
def execLdaZp (p : Byte) (s : State) : Host.Outcome State Fault Refusal :=
  .next (loadA (.zp p) s)

/-- `LDA #`, opcode 0xA9 (R180). -/
def execLdaImm (v : Byte) (s : State) : Host.Outcome State Fault Refusal :=
  .next (loadA (.imm v) s)

/-- `LDA abs`, opcode 0xAD (R180). -/
def execLdaAbs (addr : Word) (s : State) : Host.Outcome State Fault Refusal :=
  .next (loadA (.abs addr) s)

/-- `LDA (zp),Y`, opcode 0xB1 (R180). -/
def execLdaIzy (p : Byte) (s : State) : Host.Outcome State Fault Refusal :=
  .next (loadA (.izy p) s)

/-- `LDA zp,X`, opcode 0xB5 (R180). -/
def execLdaZpx (p : Byte) (s : State) : Host.Outcome State Fault Refusal :=
  .next (loadA (.zpx p) s)

/-- `LDA abs,Y`, opcode 0xB9 (R180). -/
def execLdaAby (base : Word) (s : State) : Host.Outcome State Fault Refusal :=
  .next (loadA (.aby base) s)

/-- `LDA abs,X`, opcode 0xBD (R180). -/
def execLdaAbx (base : Word) (s : State) : Host.Outcome State Fault Refusal :=
  .next (loadA (.abx base) s)

/-- `LDX #`, opcode 0xA2 (R181). -/
def execLdxImm (v : Byte) (s : State) : Host.Outcome State Fault Refusal :=
  .next (loadX (.imm v) s)

/-- `LDX zp`, opcode 0xA6 (R181). -/
def execLdxZp (p : Byte) (s : State) : Host.Outcome State Fault Refusal :=
  .next (loadX (.zp p) s)

/-- `LDX abs`, opcode 0xAE (R181). -/
def execLdxAbs (addr : Word) (s : State) : Host.Outcome State Fault Refusal :=
  .next (loadX (.abs addr) s)

/-- `LDX zp,Y`, opcode 0xB6 (R181). -/
def execLdxZpy (p : Byte) (s : State) : Host.Outcome State Fault Refusal :=
  .next (loadX (.zpy p) s)

/-- `LDX abs,Y`, opcode 0xBE (R181). -/
def execLdxAby (base : Word) (s : State) : Host.Outcome State Fault Refusal :=
  .next (loadX (.aby base) s)

/-- `LDY #`, opcode 0xA0 (R182). -/
def execLdyImm (v : Byte) (s : State) : Host.Outcome State Fault Refusal :=
  .next (loadY (.imm v) s)

/-- `LDY zp`, opcode 0xA4 (R182). -/
def execLdyZp (p : Byte) (s : State) : Host.Outcome State Fault Refusal :=
  .next (loadY (.zp p) s)

/-- `LDY abs`, opcode 0xAC (R182). -/
def execLdyAbs (addr : Word) (s : State) : Host.Outcome State Fault Refusal :=
  .next (loadY (.abs addr) s)

/-- `LDY zp,X`, opcode 0xB4 (R182). -/
def execLdyZpx (p : Byte) (s : State) : Host.Outcome State Fault Refusal :=
  .next (loadY (.zpx p) s)

/-- `LDY abs,X`, opcode 0xBC (R182). -/
def execLdyAbx (base : Word) (s : State) : Host.Outcome State Fault Refusal :=
  .next (loadY (.abx base) s)

/-- `STA (zp,X)`, opcode 0x81 (R183). -/
def execStaIzx (p : Byte) (s : State) : Host.Outcome State Fault Refusal :=
  .next (writeOp (.izx p) s.a s)

/-- `STA zp`, opcode 0x85 (R183). -/
def execStaZp (p : Byte) (s : State) : Host.Outcome State Fault Refusal :=
  .next (writeOp (.zp p) s.a s)

/-- `STA abs`, opcode 0x8D (R183). -/
def execStaAbs (addr : Word) (s : State) : Host.Outcome State Fault Refusal :=
  .next (writeOp (.abs addr) s.a s)

/-- `STA (zp),Y`, opcode 0x91 (R183). -/
def execStaIzy (p : Byte) (s : State) : Host.Outcome State Fault Refusal :=
  .next (writeOp (.izy p) s.a s)

/-- `STA zp,X`, opcode 0x95 (R183). -/
def execStaZpx (p : Byte) (s : State) : Host.Outcome State Fault Refusal :=
  .next (writeOp (.zpx p) s.a s)

/-- `STA abs,Y`, opcode 0x99 (R183). -/
def execStaAby (base : Word) (s : State) : Host.Outcome State Fault Refusal :=
  .next (writeOp (.aby base) s.a s)

/-- `STA abs,X`, opcode 0x9D (R183). -/
def execStaAbx (base : Word) (s : State) : Host.Outcome State Fault Refusal :=
  .next (writeOp (.abx base) s.a s)

/-- `STX zp`, opcode 0x86 (R184). -/
def execStxZp (p : Byte) (s : State) : Host.Outcome State Fault Refusal :=
  .next (writeOp (.zp p) s.x s)

/-- `STX abs`, opcode 0x8E (R184). -/
def execStxAbs (addr : Word) (s : State) : Host.Outcome State Fault Refusal :=
  .next (writeOp (.abs addr) s.x s)

/-- `STX zp,Y`, opcode 0x96 (R184). -/
def execStxZpy (p : Byte) (s : State) : Host.Outcome State Fault Refusal :=
  .next (writeOp (.zpy p) s.x s)

/-- `STY zp`, opcode 0x84 (R185). -/
def execStyZp (p : Byte) (s : State) : Host.Outcome State Fault Refusal :=
  .next (writeOp (.zp p) s.y s)

/-- `STY abs`, opcode 0x8C (R185). -/
def execStyAbs (addr : Word) (s : State) : Host.Outcome State Fault Refusal :=
  .next (writeOp (.abs addr) s.y s)

/-- `STY zp,X`, opcode 0x94 (R185). -/
def execStyZpx (p : Byte) (s : State) : Host.Outcome State Fault Refusal :=
  .next (writeOp (.zpx p) s.y s)

/-- `TAX`, opcode 0xAA (R186). -/
def execTax (s : State) : Host.Outcome State Fault Refusal :=
  .next (((impliedCycle s).setX s.a).setNZ s.a)

/-- `TAY`, opcode 0xA8 (R187). -/
def execTay (s : State) : Host.Outcome State Fault Refusal :=
  .next (((impliedCycle s).setY s.a).setNZ s.a)

/-- `TXA`, opcode 0x8A (R188). -/
def execTxa (s : State) : Host.Outcome State Fault Refusal :=
  .next (((impliedCycle s).setA s.x).setNZ s.x)

/-- `TYA`, opcode 0x98 (R189). -/
def execTya (s : State) : Host.Outcome State Fault Refusal :=
  .next (((impliedCycle s).setA s.y).setNZ s.y)

/-- `TSX`, opcode 0xBA (R190). -/
def execTsx (s : State) : Host.Outcome State Fault Refusal :=
  .next (((impliedCycle s).setX s.sp).setNZ s.sp)

/-- `TXS`, opcode 0x9A (R191). -/
def execTxs (s : State) : Host.Outcome State Fault Refusal :=
  .next ((impliedCycle s).setSp s.x)

end Sys2Proof.Machine
end

