-- ==== Sys2Proof/Machine/Logic.lean ====
section
/-! DEFINITION. Bitwise logic, bit test, shifts and rotates (43_logic_shift.md R230 to R237). -/

namespace Sys2Proof.Machine

/-- `m <- ReadOp(mode); A <- A op m; setNZ(A)` (R230 to R232). -/
def combineA (m : ReadMode) (op : Byte → Byte → Byte) (s : State) : State :=
  let r := readOp m s
  (r.2.setA (op s.a r.1)).setNZ (op s.a r.1)

/-- BIT (R233): A is unchanged. -/
def testBits (m : ReadMode) (s : State) : State :=
  let r := readOp m s
  r.2.setFlags (r.2.p.setBit s.a r.1)

/-- `(v, r) <- RMWOp(mode, f); C <- v[bit]; setNZ(r)` (R234 to R237): `carryBit` is the bit shifted out. -/
def shiftOp (m : RmwMode) (f : Byte → Byte) (carryBit : Nat) (s : State) : State :=
  let r := rmwOp m f s
  r.2.setFlags (r.2.p.setShift (r.1.getLsbD carryBit) (f r.1))

/-- `AND (zp,X)`, opcode 0x21 (R230). -/
def execAndIzx (p : Byte) (s : State) : Host.Outcome State Fault Refusal :=
  .next (combineA (.izx p) (fun a v => a &&& v) s)

/-- `AND zp`, opcode 0x25 (R230). -/
def execAndZp (p : Byte) (s : State) : Host.Outcome State Fault Refusal :=
  .next (combineA (.zp p) (fun a v => a &&& v) s)

/-- `AND #`, opcode 0x29 (R230). -/
def execAndImm (v : Byte) (s : State) : Host.Outcome State Fault Refusal :=
  .next (combineA (.imm v) (fun a v => a &&& v) s)

/-- `AND abs`, opcode 0x2D (R230). -/
def execAndAbs (addr : Word) (s : State) : Host.Outcome State Fault Refusal :=
  .next (combineA (.abs addr) (fun a v => a &&& v) s)

/-- `AND (zp),Y`, opcode 0x31 (R230). -/
def execAndIzy (p : Byte) (s : State) : Host.Outcome State Fault Refusal :=
  .next (combineA (.izy p) (fun a v => a &&& v) s)

/-- `AND zp,X`, opcode 0x35 (R230). -/
def execAndZpx (p : Byte) (s : State) : Host.Outcome State Fault Refusal :=
  .next (combineA (.zpx p) (fun a v => a &&& v) s)

/-- `AND abs,Y`, opcode 0x39 (R230). -/
def execAndAby (base : Word) (s : State) : Host.Outcome State Fault Refusal :=
  .next (combineA (.aby base) (fun a v => a &&& v) s)

/-- `AND abs,X`, opcode 0x3D (R230). -/
def execAndAbx (base : Word) (s : State) : Host.Outcome State Fault Refusal :=
  .next (combineA (.abx base) (fun a v => a &&& v) s)

/-- `ORA (zp,X)`, opcode 0x01 (R231). -/
def execOraIzx (p : Byte) (s : State) : Host.Outcome State Fault Refusal :=
  .next (combineA (.izx p) (fun a v => a ||| v) s)

/-- `ORA zp`, opcode 0x05 (R231). -/
def execOraZp (p : Byte) (s : State) : Host.Outcome State Fault Refusal :=
  .next (combineA (.zp p) (fun a v => a ||| v) s)

/-- `ORA #`, opcode 0x09 (R231). -/
def execOraImm (v : Byte) (s : State) : Host.Outcome State Fault Refusal :=
  .next (combineA (.imm v) (fun a v => a ||| v) s)

/-- `ORA abs`, opcode 0x0D (R231). -/
def execOraAbs (addr : Word) (s : State) : Host.Outcome State Fault Refusal :=
  .next (combineA (.abs addr) (fun a v => a ||| v) s)

/-- `ORA (zp),Y`, opcode 0x11 (R231). -/
def execOraIzy (p : Byte) (s : State) : Host.Outcome State Fault Refusal :=
  .next (combineA (.izy p) (fun a v => a ||| v) s)

/-- `ORA zp,X`, opcode 0x15 (R231). -/
def execOraZpx (p : Byte) (s : State) : Host.Outcome State Fault Refusal :=
  .next (combineA (.zpx p) (fun a v => a ||| v) s)

/-- `ORA abs,Y`, opcode 0x19 (R231). -/
def execOraAby (base : Word) (s : State) : Host.Outcome State Fault Refusal :=
  .next (combineA (.aby base) (fun a v => a ||| v) s)

/-- `ORA abs,X`, opcode 0x1D (R231). -/
def execOraAbx (base : Word) (s : State) : Host.Outcome State Fault Refusal :=
  .next (combineA (.abx base) (fun a v => a ||| v) s)

/-- `EOR (zp,X)`, opcode 0x41 (R232). -/
def execEorIzx (p : Byte) (s : State) : Host.Outcome State Fault Refusal :=
  .next (combineA (.izx p) (fun a v => a ^^^ v) s)

/-- `EOR zp`, opcode 0x45 (R232). -/
def execEorZp (p : Byte) (s : State) : Host.Outcome State Fault Refusal :=
  .next (combineA (.zp p) (fun a v => a ^^^ v) s)

/-- `EOR #`, opcode 0x49 (R232). -/
def execEorImm (v : Byte) (s : State) : Host.Outcome State Fault Refusal :=
  .next (combineA (.imm v) (fun a v => a ^^^ v) s)

/-- `EOR abs`, opcode 0x4D (R232). -/
def execEorAbs (addr : Word) (s : State) : Host.Outcome State Fault Refusal :=
  .next (combineA (.abs addr) (fun a v => a ^^^ v) s)

/-- `EOR (zp),Y`, opcode 0x51 (R232). -/
def execEorIzy (p : Byte) (s : State) : Host.Outcome State Fault Refusal :=
  .next (combineA (.izy p) (fun a v => a ^^^ v) s)

/-- `EOR zp,X`, opcode 0x55 (R232). -/
def execEorZpx (p : Byte) (s : State) : Host.Outcome State Fault Refusal :=
  .next (combineA (.zpx p) (fun a v => a ^^^ v) s)

/-- `EOR abs,Y`, opcode 0x59 (R232). -/
def execEorAby (base : Word) (s : State) : Host.Outcome State Fault Refusal :=
  .next (combineA (.aby base) (fun a v => a ^^^ v) s)

/-- `EOR abs,X`, opcode 0x5D (R232). -/
def execEorAbx (base : Word) (s : State) : Host.Outcome State Fault Refusal :=
  .next (combineA (.abx base) (fun a v => a ^^^ v) s)

/-- `BIT zp`, opcode 0x24 (R233). -/
def execBitZp (p : Byte) (s : State) : Host.Outcome State Fault Refusal :=
  .next (testBits (.zp p) s)

/-- `BIT abs`, opcode 0x2C (R233). -/
def execBitAbs (addr : Word) (s : State) : Host.Outcome State Fault Refusal :=
  .next (testBits (.abs addr) s)

/-- `ASL zp`, opcode 0x06 (R234). -/
def execAslZp (p : Byte) (s : State) : Host.Outcome State Fault Refusal :=
  .next (shiftOp (.zp p) shiftLeft 7 s)

/-- `ASL A`, opcode 0x0A (R234). -/
def execAslAcc (s : State) : Host.Outcome State Fault Refusal :=
  .next (shiftOp .acc shiftLeft 7 s)

/-- `ASL abs`, opcode 0x0E (R234). -/
def execAslAbs (addr : Word) (s : State) : Host.Outcome State Fault Refusal :=
  .next (shiftOp (.abs addr) shiftLeft 7 s)

/-- `ASL zp,X`, opcode 0x16 (R234). -/
def execAslZpx (p : Byte) (s : State) : Host.Outcome State Fault Refusal :=
  .next (shiftOp (.zpx p) shiftLeft 7 s)

/-- `ASL abs,X`, opcode 0x1E (R234). -/
def execAslAbx (base : Word) (s : State) : Host.Outcome State Fault Refusal :=
  .next (shiftOp (.abx base) shiftLeft 7 s)

/-- `LSR zp`, opcode 0x46 (R235). -/
def execLsrZp (p : Byte) (s : State) : Host.Outcome State Fault Refusal :=
  .next (shiftOp (.zp p) shiftRight 0 s)

/-- `LSR A`, opcode 0x4A (R235). -/
def execLsrAcc (s : State) : Host.Outcome State Fault Refusal :=
  .next (shiftOp .acc shiftRight 0 s)

/-- `LSR abs`, opcode 0x4E (R235). -/
def execLsrAbs (addr : Word) (s : State) : Host.Outcome State Fault Refusal :=
  .next (shiftOp (.abs addr) shiftRight 0 s)

/-- `LSR zp,X`, opcode 0x56 (R235). -/
def execLsrZpx (p : Byte) (s : State) : Host.Outcome State Fault Refusal :=
  .next (shiftOp (.zpx p) shiftRight 0 s)

/-- `LSR abs,X`, opcode 0x5E (R235). -/
def execLsrAbx (base : Word) (s : State) : Host.Outcome State Fault Refusal :=
  .next (shiftOp (.abx base) shiftRight 0 s)

/-- `ROL zp`, opcode 0x26 (R236). -/
def execRolZp (p : Byte) (s : State) : Host.Outcome State Fault Refusal :=
  .next (shiftOp (.zp p) (rotateLeft s.p.c) 7 s)

/-- `ROL A`, opcode 0x2A (R236). -/
def execRolAcc (s : State) : Host.Outcome State Fault Refusal :=
  .next (shiftOp .acc (rotateLeft s.p.c) 7 s)

/-- `ROL abs`, opcode 0x2E (R236). -/
def execRolAbs (addr : Word) (s : State) : Host.Outcome State Fault Refusal :=
  .next (shiftOp (.abs addr) (rotateLeft s.p.c) 7 s)

/-- `ROL zp,X`, opcode 0x36 (R236). -/
def execRolZpx (p : Byte) (s : State) : Host.Outcome State Fault Refusal :=
  .next (shiftOp (.zpx p) (rotateLeft s.p.c) 7 s)

/-- `ROL abs,X`, opcode 0x3E (R236). -/
def execRolAbx (base : Word) (s : State) : Host.Outcome State Fault Refusal :=
  .next (shiftOp (.abx base) (rotateLeft s.p.c) 7 s)

/-- `ROR zp`, opcode 0x66 (R237). -/
def execRorZp (p : Byte) (s : State) : Host.Outcome State Fault Refusal :=
  .next (shiftOp (.zp p) (rotateRight s.p.c) 0 s)

/-- `ROR A`, opcode 0x6A (R237). -/
def execRorAcc (s : State) : Host.Outcome State Fault Refusal :=
  .next (shiftOp .acc (rotateRight s.p.c) 0 s)

/-- `ROR abs`, opcode 0x6E (R237). -/
def execRorAbs (addr : Word) (s : State) : Host.Outcome State Fault Refusal :=
  .next (shiftOp (.abs addr) (rotateRight s.p.c) 0 s)

/-- `ROR zp,X`, opcode 0x76 (R237). -/
def execRorZpx (p : Byte) (s : State) : Host.Outcome State Fault Refusal :=
  .next (shiftOp (.zpx p) (rotateRight s.p.c) 0 s)

/-- `ROR abs,X`, opcode 0x7E (R237). -/
def execRorAbx (base : Word) (s : State) : Host.Outcome State Fault Refusal :=
  .next (shiftOp (.abx base) (rotateRight s.p.c) 0 s)

end Sys2Proof.Machine
end

