-- ==== Sys2Proof/Machine/StackFlags.lean ====
section
/-! DEFINITION. Stack operations, flag operations and NOP (45_stack_flags_misc.md R280 to R291). -/

namespace Sys2Proof.Machine

/-- The c2 and c3 cycles of a pull instruction, then the pulled byte (R282, R283). -/
def pullByte (s : State) : Byte × State :=
  pull (dummyRead (stackAddr s.sp) (impliedCycle s))

/-- PLA (R282). -/
def pullA (s : State) : State :=
  let r := pullByte s
  (r.2.setA r.1).setNZ r.1

/-- PLP (R283): bits 5 and 4 of the pulled byte are ignored. -/
def pullFlags (s : State) : State :=
  let r := pullByte s
  r.2.setFlags (unpackP r.1)

/-- `PHA`, opcode 0x48 (R280). -/
def execPha (s : State) : Host.Outcome State Fault Refusal :=
  .next (push s.a (impliedCycle s))

/-- `PHP`, opcode 0x08 (R281). -/
def execPhp (s : State) : Host.Outcome State Fault Refusal :=
  .next (push (packP true s.p) (impliedCycle s))

/-- `PLA`, opcode 0x68 (R282). -/
def execPla (s : State) : Host.Outcome State Fault Refusal :=
  .next (pullA s)

/-- `PLP`, opcode 0x28 (R283). -/
def execPlp (s : State) : Host.Outcome State Fault Refusal :=
  .next (pullFlags s)

/-- `CLC`, opcode 0x18 (R284). -/
def execClc (s : State) : Host.Outcome State Fault Refusal :=
  .next ((impliedCycle s).setFlags { s.p with c := false })

/-- `CLD`, opcode 0xD8 (R285). -/
def execCld (s : State) : Host.Outcome State Fault Refusal :=
  .next ((impliedCycle s).setFlags { s.p with d := false })

/-- `CLI`, opcode 0x58 (R286). -/
def execCli (s : State) : Host.Outcome State Fault Refusal :=
  .next ((impliedCycle s).setFlags { s.p with i := false })

/-- `CLV`, opcode 0xB8 (R287). -/
def execClv (s : State) : Host.Outcome State Fault Refusal :=
  .next ((impliedCycle s).setFlags { s.p with v := false })

/-- `SEC`, opcode 0x38 (R288). -/
def execSec (s : State) : Host.Outcome State Fault Refusal :=
  .next ((impliedCycle s).setFlags { s.p with c := true })

/-- `SED`, opcode 0xF8 (R289). -/
def execSed (s : State) : Host.Outcome State Fault Refusal :=
  .next ((impliedCycle s).setFlags { s.p with d := true })

/-- `SEI`, opcode 0x78 (R290). -/
def execSei (s : State) : Host.Outcome State Fault Refusal :=
  .next ((impliedCycle s).setFlags { s.p with i := true })

/-- `NOP`, opcode 0xEA (R291). -/
def execNop (s : State) : Host.Outcome State Fault Refusal :=
  .next (impliedCycle s)

end Sys2Proof.Machine
end

