-- ==== Sys2Proof/Machine/Dispatch.lean ====
section
/-! DEFINITION. One arm per constructor of `Instr`: its meaning, from the state the operand fetches leave (60_exceptions.md R331). -/

namespace Sys2Proof.Machine

def exec (i : Instr) (s : State) : Host.Outcome State Fault Refusal :=
  match i with
  | .brk => Sys2Proof.Machine.execBrk s
  | .oraIzx p => Sys2Proof.Machine.execOraIzx p s
  | .ill02 => Sys2Proof.Machine.execIll02 s
  | .ill03 => Sys2Proof.Machine.execIll03 s
  | .ill04 => Sys2Proof.Machine.execIll04 s
  | .oraZp p => Sys2Proof.Machine.execOraZp p s
  | .aslZp p => Sys2Proof.Machine.execAslZp p s
  | .ill07 => Sys2Proof.Machine.execIll07 s
  | .php => Sys2Proof.Machine.execPhp s
  | .oraImm v => Sys2Proof.Machine.execOraImm v s
  | .aslAcc => Sys2Proof.Machine.execAslAcc s
  | .ill0B => Sys2Proof.Machine.execIll0B s
  | .ill0C => Sys2Proof.Machine.execIll0C s
  | .oraAbs addr => Sys2Proof.Machine.execOraAbs addr s
  | .aslAbs addr => Sys2Proof.Machine.execAslAbs addr s
  | .ill0F => Sys2Proof.Machine.execIll0F s
  | .bpl d => Sys2Proof.Machine.execBpl d s
  | .oraIzy p => Sys2Proof.Machine.execOraIzy p s
  | .ill12 => Sys2Proof.Machine.execIll12 s
  | .ill13 => Sys2Proof.Machine.execIll13 s
  | .ill14 => Sys2Proof.Machine.execIll14 s
  | .oraZpx p => Sys2Proof.Machine.execOraZpx p s
  | .aslZpx p => Sys2Proof.Machine.execAslZpx p s
  | .ill17 => Sys2Proof.Machine.execIll17 s
  | .clc => Sys2Proof.Machine.execClc s
  | .oraAby base => Sys2Proof.Machine.execOraAby base s
  | .ill1A => Sys2Proof.Machine.execIll1A s
  | .ill1B => Sys2Proof.Machine.execIll1B s
  | .ill1C => Sys2Proof.Machine.execIll1C s
  | .oraAbx base => Sys2Proof.Machine.execOraAbx base s
  | .aslAbx base => Sys2Proof.Machine.execAslAbx base s
  | .ill1F => Sys2Proof.Machine.execIll1F s
  | .jsr addr => Sys2Proof.Machine.execJsr addr s
  | .andIzx p => Sys2Proof.Machine.execAndIzx p s
  | .ill22 => Sys2Proof.Machine.execIll22 s
  | .ill23 => Sys2Proof.Machine.execIll23 s
  | .bitZp p => Sys2Proof.Machine.execBitZp p s
  | .andZp p => Sys2Proof.Machine.execAndZp p s
  | .rolZp p => Sys2Proof.Machine.execRolZp p s
  | .ill27 => Sys2Proof.Machine.execIll27 s
  | .plp => Sys2Proof.Machine.execPlp s
  | .andImm v => Sys2Proof.Machine.execAndImm v s
  | .rolAcc => Sys2Proof.Machine.execRolAcc s
  | .ill2B => Sys2Proof.Machine.execIll2B s
  | .bitAbs addr => Sys2Proof.Machine.execBitAbs addr s
  | .andAbs addr => Sys2Proof.Machine.execAndAbs addr s
  | .rolAbs addr => Sys2Proof.Machine.execRolAbs addr s
  | .ill2F => Sys2Proof.Machine.execIll2F s
  | .bmi d => Sys2Proof.Machine.execBmi d s
  | .andIzy p => Sys2Proof.Machine.execAndIzy p s
  | .ill32 => Sys2Proof.Machine.execIll32 s
  | .ill33 => Sys2Proof.Machine.execIll33 s
  | .ill34 => Sys2Proof.Machine.execIll34 s
  | .andZpx p => Sys2Proof.Machine.execAndZpx p s
  | .rolZpx p => Sys2Proof.Machine.execRolZpx p s
  | .ill37 => Sys2Proof.Machine.execIll37 s
  | .sec => Sys2Proof.Machine.execSec s
  | .andAby base => Sys2Proof.Machine.execAndAby base s
  | .ill3A => Sys2Proof.Machine.execIll3A s
  | .ill3B => Sys2Proof.Machine.execIll3B s
  | .ill3C => Sys2Proof.Machine.execIll3C s
  | .andAbx base => Sys2Proof.Machine.execAndAbx base s
  | .rolAbx base => Sys2Proof.Machine.execRolAbx base s
  | .ill3F => Sys2Proof.Machine.execIll3F s
  | .rti => Sys2Proof.Machine.execRti s
  | .eorIzx p => Sys2Proof.Machine.execEorIzx p s
  | .ill42 => Sys2Proof.Machine.execIll42 s
  | .ill43 => Sys2Proof.Machine.execIll43 s
  | .ill44 => Sys2Proof.Machine.execIll44 s
  | .eorZp p => Sys2Proof.Machine.execEorZp p s
  | .lsrZp p => Sys2Proof.Machine.execLsrZp p s
  | .ill47 => Sys2Proof.Machine.execIll47 s
  | .pha => Sys2Proof.Machine.execPha s
  | .eorImm v => Sys2Proof.Machine.execEorImm v s
  | .lsrAcc => Sys2Proof.Machine.execLsrAcc s
  | .ill4B => Sys2Proof.Machine.execIll4B s
  | .jmpAbs addr => Sys2Proof.Machine.execJmpAbs addr s
  | .eorAbs addr => Sys2Proof.Machine.execEorAbs addr s
  | .lsrAbs addr => Sys2Proof.Machine.execLsrAbs addr s
  | .ill4F => Sys2Proof.Machine.execIll4F s
  | .bvc d => Sys2Proof.Machine.execBvc d s
  | .eorIzy p => Sys2Proof.Machine.execEorIzy p s
  | .ill52 => Sys2Proof.Machine.execIll52 s
  | .ill53 => Sys2Proof.Machine.execIll53 s
  | .ill54 => Sys2Proof.Machine.execIll54 s
  | .eorZpx p => Sys2Proof.Machine.execEorZpx p s
  | .lsrZpx p => Sys2Proof.Machine.execLsrZpx p s
  | .ill57 => Sys2Proof.Machine.execIll57 s
  | .cli => Sys2Proof.Machine.execCli s
  | .eorAby base => Sys2Proof.Machine.execEorAby base s
  | .ill5A => Sys2Proof.Machine.execIll5A s
  | .ill5B => Sys2Proof.Machine.execIll5B s
  | .ill5C => Sys2Proof.Machine.execIll5C s
  | .eorAbx base => Sys2Proof.Machine.execEorAbx base s
  | .lsrAbx base => Sys2Proof.Machine.execLsrAbx base s
  | .ill5F => Sys2Proof.Machine.execIll5F s
  | .rts => Sys2Proof.Machine.execRts s
  | .adcIzx p => Sys2Proof.Machine.execAdcIzx p s
  | .ill62 => Sys2Proof.Machine.execIll62 s
  | .ill63 => Sys2Proof.Machine.execIll63 s
  | .ill64 => Sys2Proof.Machine.execIll64 s
  | .adcZp p => Sys2Proof.Machine.execAdcZp p s
  | .rorZp p => Sys2Proof.Machine.execRorZp p s
  | .ill67 => Sys2Proof.Machine.execIll67 s
  | .pla => Sys2Proof.Machine.execPla s
  | .adcImm v => Sys2Proof.Machine.execAdcImm v s
  | .rorAcc => Sys2Proof.Machine.execRorAcc s
  | .ill6B => Sys2Proof.Machine.execIll6B s
  | .jmpInd ptr => Sys2Proof.Machine.execJmpInd ptr s
  | .adcAbs addr => Sys2Proof.Machine.execAdcAbs addr s
  | .rorAbs addr => Sys2Proof.Machine.execRorAbs addr s
  | .ill6F => Sys2Proof.Machine.execIll6F s
  | .bvs d => Sys2Proof.Machine.execBvs d s
  | .adcIzy p => Sys2Proof.Machine.execAdcIzy p s
  | .ill72 => Sys2Proof.Machine.execIll72 s
  | .ill73 => Sys2Proof.Machine.execIll73 s
  | .ill74 => Sys2Proof.Machine.execIll74 s
  | .adcZpx p => Sys2Proof.Machine.execAdcZpx p s
  | .rorZpx p => Sys2Proof.Machine.execRorZpx p s
  | .ill77 => Sys2Proof.Machine.execIll77 s
  | .sei => Sys2Proof.Machine.execSei s
  | .adcAby base => Sys2Proof.Machine.execAdcAby base s
  | .ill7A => Sys2Proof.Machine.execIll7A s
  | .ill7B => Sys2Proof.Machine.execIll7B s
  | .ill7C => Sys2Proof.Machine.execIll7C s
  | .adcAbx base => Sys2Proof.Machine.execAdcAbx base s
  | .rorAbx base => Sys2Proof.Machine.execRorAbx base s
  | .ill7F => Sys2Proof.Machine.execIll7F s
  | .ill80 => Sys2Proof.Machine.execIll80 s
  | .staIzx p => Sys2Proof.Machine.execStaIzx p s
  | .ill82 => Sys2Proof.Machine.execIll82 s
  | .ill83 => Sys2Proof.Machine.execIll83 s
  | .styZp p => Sys2Proof.Machine.execStyZp p s
  | .staZp p => Sys2Proof.Machine.execStaZp p s
  | .stxZp p => Sys2Proof.Machine.execStxZp p s
  | .ill87 => Sys2Proof.Machine.execIll87 s
  | .dey => Sys2Proof.Machine.execDey s
  | .ill89 => Sys2Proof.Machine.execIll89 s
  | .txa => Sys2Proof.Machine.execTxa s
  | .ill8B => Sys2Proof.Machine.execIll8B s
  | .styAbs addr => Sys2Proof.Machine.execStyAbs addr s
  | .staAbs addr => Sys2Proof.Machine.execStaAbs addr s
  | .stxAbs addr => Sys2Proof.Machine.execStxAbs addr s
  | .ill8F => Sys2Proof.Machine.execIll8F s
  | .bcc d => Sys2Proof.Machine.execBcc d s
  | .staIzy p => Sys2Proof.Machine.execStaIzy p s
  | .ill92 => Sys2Proof.Machine.execIll92 s
  | .ill93 => Sys2Proof.Machine.execIll93 s
  | .styZpx p => Sys2Proof.Machine.execStyZpx p s
  | .staZpx p => Sys2Proof.Machine.execStaZpx p s
  | .stxZpy p => Sys2Proof.Machine.execStxZpy p s
  | .ill97 => Sys2Proof.Machine.execIll97 s
  | .tya => Sys2Proof.Machine.execTya s
  | .staAby base => Sys2Proof.Machine.execStaAby base s
  | .txs => Sys2Proof.Machine.execTxs s
  | .ill9B => Sys2Proof.Machine.execIll9B s
  | .ill9C => Sys2Proof.Machine.execIll9C s
  | .staAbx base => Sys2Proof.Machine.execStaAbx base s
  | .ill9E => Sys2Proof.Machine.execIll9E s
  | .ill9F => Sys2Proof.Machine.execIll9F s
  | .ldyImm v => Sys2Proof.Machine.execLdyImm v s
  | .ldaIzx p => Sys2Proof.Machine.execLdaIzx p s
  | .ldxImm v => Sys2Proof.Machine.execLdxImm v s
  | .illA3 => Sys2Proof.Machine.execIllA3 s
  | .ldyZp p => Sys2Proof.Machine.execLdyZp p s
  | .ldaZp p => Sys2Proof.Machine.execLdaZp p s
  | .ldxZp p => Sys2Proof.Machine.execLdxZp p s
  | .illA7 => Sys2Proof.Machine.execIllA7 s
  | .tay => Sys2Proof.Machine.execTay s
  | .ldaImm v => Sys2Proof.Machine.execLdaImm v s
  | .tax => Sys2Proof.Machine.execTax s
  | .illAB => Sys2Proof.Machine.execIllAB s
  | .ldyAbs addr => Sys2Proof.Machine.execLdyAbs addr s
  | .ldaAbs addr => Sys2Proof.Machine.execLdaAbs addr s
  | .ldxAbs addr => Sys2Proof.Machine.execLdxAbs addr s
  | .illAF => Sys2Proof.Machine.execIllAF s
  | .bcs d => Sys2Proof.Machine.execBcs d s
  | .ldaIzy p => Sys2Proof.Machine.execLdaIzy p s
  | .illB2 => Sys2Proof.Machine.execIllB2 s
  | .illB3 => Sys2Proof.Machine.execIllB3 s
  | .ldyZpx p => Sys2Proof.Machine.execLdyZpx p s
  | .ldaZpx p => Sys2Proof.Machine.execLdaZpx p s
  | .ldxZpy p => Sys2Proof.Machine.execLdxZpy p s
  | .illB7 => Sys2Proof.Machine.execIllB7 s
  | .clv => Sys2Proof.Machine.execClv s
  | .ldaAby base => Sys2Proof.Machine.execLdaAby base s
  | .tsx => Sys2Proof.Machine.execTsx s
  | .illBB => Sys2Proof.Machine.execIllBB s
  | .ldyAbx base => Sys2Proof.Machine.execLdyAbx base s
  | .ldaAbx base => Sys2Proof.Machine.execLdaAbx base s
  | .ldxAby base => Sys2Proof.Machine.execLdxAby base s
  | .illBF => Sys2Proof.Machine.execIllBF s
  | .cpyImm v => Sys2Proof.Machine.execCpyImm v s
  | .cmpIzx p => Sys2Proof.Machine.execCmpIzx p s
  | .illC2 => Sys2Proof.Machine.execIllC2 s
  | .illC3 => Sys2Proof.Machine.execIllC3 s
  | .cpyZp p => Sys2Proof.Machine.execCpyZp p s
  | .cmpZp p => Sys2Proof.Machine.execCmpZp p s
  | .decZp p => Sys2Proof.Machine.execDecZp p s
  | .illC7 => Sys2Proof.Machine.execIllC7 s
  | .iny => Sys2Proof.Machine.execIny s
  | .cmpImm v => Sys2Proof.Machine.execCmpImm v s
  | .dex => Sys2Proof.Machine.execDex s
  | .illCB => Sys2Proof.Machine.execIllCB s
  | .cpyAbs addr => Sys2Proof.Machine.execCpyAbs addr s
  | .cmpAbs addr => Sys2Proof.Machine.execCmpAbs addr s
  | .decAbs addr => Sys2Proof.Machine.execDecAbs addr s
  | .illCF => Sys2Proof.Machine.execIllCF s
  | .bne d => Sys2Proof.Machine.execBne d s
  | .cmpIzy p => Sys2Proof.Machine.execCmpIzy p s
  | .illD2 => Sys2Proof.Machine.execIllD2 s
  | .illD3 => Sys2Proof.Machine.execIllD3 s
  | .illD4 => Sys2Proof.Machine.execIllD4 s
  | .cmpZpx p => Sys2Proof.Machine.execCmpZpx p s
  | .decZpx p => Sys2Proof.Machine.execDecZpx p s
  | .illD7 => Sys2Proof.Machine.execIllD7 s
  | .cld => Sys2Proof.Machine.execCld s
  | .cmpAby base => Sys2Proof.Machine.execCmpAby base s
  | .illDA => Sys2Proof.Machine.execIllDA s
  | .illDB => Sys2Proof.Machine.execIllDB s
  | .illDC => Sys2Proof.Machine.execIllDC s
  | .cmpAbx base => Sys2Proof.Machine.execCmpAbx base s
  | .decAbx base => Sys2Proof.Machine.execDecAbx base s
  | .illDF => Sys2Proof.Machine.execIllDF s
  | .cpxImm v => Sys2Proof.Machine.execCpxImm v s
  | .sbcIzx p => Sys2Proof.Machine.execSbcIzx p s
  | .illE2 => Sys2Proof.Machine.execIllE2 s
  | .illE3 => Sys2Proof.Machine.execIllE3 s
  | .cpxZp p => Sys2Proof.Machine.execCpxZp p s
  | .sbcZp p => Sys2Proof.Machine.execSbcZp p s
  | .incZp p => Sys2Proof.Machine.execIncZp p s
  | .illE7 => Sys2Proof.Machine.execIllE7 s
  | .inx => Sys2Proof.Machine.execInx s
  | .sbcImm v => Sys2Proof.Machine.execSbcImm v s
  | .nop => Sys2Proof.Machine.execNop s
  | .illEB => Sys2Proof.Machine.execIllEB s
  | .cpxAbs addr => Sys2Proof.Machine.execCpxAbs addr s
  | .sbcAbs addr => Sys2Proof.Machine.execSbcAbs addr s
  | .incAbs addr => Sys2Proof.Machine.execIncAbs addr s
  | .illEF => Sys2Proof.Machine.execIllEF s
  | .beq d => Sys2Proof.Machine.execBeq d s
  | .sbcIzy p => Sys2Proof.Machine.execSbcIzy p s
  | .illF2 => Sys2Proof.Machine.execIllF2 s
  | .illF3 => Sys2Proof.Machine.execIllF3 s
  | .illF4 => Sys2Proof.Machine.execIllF4 s
  | .sbcZpx p => Sys2Proof.Machine.execSbcZpx p s
  | .incZpx p => Sys2Proof.Machine.execIncZpx p s
  | .illF7 => Sys2Proof.Machine.execIllF7 s
  | .sed => Sys2Proof.Machine.execSed s
  | .sbcAby base => Sys2Proof.Machine.execSbcAby base s
  | .illFA => Sys2Proof.Machine.execIllFA s
  | .illFB => Sys2Proof.Machine.execIllFB s
  | .illFC => Sys2Proof.Machine.execIllFC s
  | .sbcAbx base => Sys2Proof.Machine.execSbcAbx base s
  | .incAbx base => Sys2Proof.Machine.execIncAbx base s
  | .illFF => Sys2Proof.Machine.execIllFF s

end Sys2Proof.Machine
end

