-- ==== Sys2Proof/Machine/Boundary.lean ====
section
/-! DEFINITION. The instruction boundary (60_exceptions.md R315, R319, R320, R331): the environment's events, the choice
between reset, IRQ and an instruction, fetching the instruction, and power-on and launch (70_reset_and_hazards.md R350 to
R358; 60_exceptions.md R323). -/

namespace Sys2Proof.Machine

/-! ### Power-on and launch -/

/-- The registry at power-on (70_reset_and_hazards.md R358): the language-card flags as `LC_POWERON`, the rest false. -/
def powerOnSwitches (lc : LcPowerOn) : Registry where
  lcBank1 := lc.bank1
  lcReadRam := lc.readRam
  lcWriteRam := lc.writeRam
  lcPrewrite := lc.prewrite
  store80 := false
  ramrd := false
  ramwrt := false
  altzp := false
  col80 := false
  altcharset := false
  text := false
  mixed := false
  page2 := false
  hires := false
  intcxrom := false
  slotc3rom := false

/-- The power-on state (70_reset_and_hazards.md R358): the draws, the ROM, empty logs, no marks, and the power-on reset as
the first step to come. The environment has made no draw yet. -/
def State.atPowerOn (cfg : Config) (rom : Memory) (draws : PowerOnDraws) : State where
  a := draws.a
  x := draws.x
  y := draws.y
  sp := draws.sp
  pc := draws.pc
  p := draws.p
  sw := powerOnSwitches cfg.lcPowerOn
  ram := Memory.ofCells cfg.ramSize draws.ram
  rom := rom
  swlog := []
  buslog := []
  cycles := 0
  fault := none
  refusal := none
  powerOn := true
  cfg := cfg
  inputs := []
  ioDraws := []
  suppressDraws := []

/-- Why a launch is refused, if it is (60_exceptions.md R323; log 14). -/
def launchRefusal (cfg : Config) (image : List Byte) : Option Refusal :=
  if cfg.romImageOk image.length = false then some .badRomSize
  else if cfg.ramSizeOk = false then some .badRamSize
  else none

/-- A launch (70_reset_and_hazards.md R358; 60_exceptions.md R323): power-on with the ROM image, and the refusal mark set
when the configuration is not legal. -/
def State.launch (cfg : Config) (image : List Byte) (draws : PowerOnDraws) : State :=
  { State.atPowerOn cfg (Memory.ofImage 0 image) draws with refusal := launchRefusal cfg image }

/-- The first step after power-on (70_reset_and_hazards.md R358): the reset sequence, run directly. -/
def powerOnReset (s : State) : State := resetSequence { s with powerOn := false }

/-- A cold reset (70_reset_and_hazards.md R356): the power-on of R358 with fresh draws, then the reset sequence. The ROM,
the configuration and the environment's draws still to come stay (log 11). -/
def coldReset (draws : PowerOnDraws) (s : State) : State :=
  powerOnReset { State.atPowerOn s.cfg s.rom draws with
    inputs := s.inputs, ioDraws := s.ioDraws, suppressDraws := s.suppressDraws }

/-! ### The events of a boundary -/

/-- A boundary at which the environment does nothing. -/
def BoundaryInput.quiet : BoundaryInput := ⟨[], [], none, .none, false⟩

/-- The environment's direct registry reads (20_memory.md R76; log 17): each index outside 0..15 raises. -/
def registryReads : List Nat → State → State
  | [], s => s
  | f :: fs, s =>
    match registryGet f s with
    | .ok _ => registryReads fs s
    | .error s' => s'

/-- `prestep()` (60_exceptions.md R319): `changes` counts the sweeps that moved PC. When the listed sweeps are used up the
next sweep leaves PC as it is (log 19). -/
def prestep (changes : Nat) : List Word → State → State
  | [], s => s
  | pc1 :: sweeps, s =>
    if pc1 = s.pc then s
    else if changes + 1 = s.cfg.prestepLimit then raiseFault .prestepLoop (s.setPc pc1)
    else prestep (changes + 1) sweeps (s.setPc pc1)

/-- `stepCheck()` (60_exceptions.md R320). -/
def stepCheck (change : Option Word) (s : State) : State :=
  match change with
  | none => s
  | some v => if v = s.pc then s else raiseFault .stepPcMutated s

/-- Go on unless the fault mark has been set. -/
def unlessFaulted (f : State → State) (s : State) : State := if s.fault.isSome then s else f s

/-- Everything the environment does at a boundary before reset, IRQ and the instruction (60_exceptions.md R315, R331). -/
def boundaryEvents (input : BoundaryInput) (s : State) : State :=
  unlessFaulted (stepCheck input.stepPcChange)
    (unlessFaulted (prestep 0 input.sweeps) (registryReads input.registryReads s))

/-- The input of this boundary: the next one held, or a quiet one (log 1). -/
def boundaryInput (s : State) : BoundaryInput := s.inputs.headD BoundaryInput.quiet

/-- The state whose boundary input has been taken. -/
def takeInput (s : State) : State := { s with inputs := s.inputs.tail }

/-! ### The instruction -/

/-- Fetch the opcode (c1) and the operand bytes an instruction fetches before it does anything else, and look the opcode up
(30_encoding.md R120 to R122; log 15). JSR fetches its third byte only after its pushes (44_control_flow.md R260), so there
the high byte of the operand is what a sneaky read shows (20_memory.md R73; log 16). -/
def fetchInstr (s : State) : Instr × State :=
  let op := fetch s
  match (opcodeRow op.1).form with
  | .implied i => (i, op.2)
  | .byte f =>
    let b1 := fetch op.2
    (f b1.1, b1.2)
  | .word f =>
    let b1 := fetch op.2
    if op.1 = 0x20 then (f (wordOf (sneakyRead b1.2.pc b1.2) b1.1), b1.2)
    else
      let b2 := fetch b1.2
      (f (wordOf b2.1 b1.1), b2.2)

/-- How many bytes of an instruction are fetched before its meaning begins: all of them, but for JSR's third. -/
def fetchedBytes (i : Instr) : Nat :=
  match i with
  | .jsr _ => 2
  | _ => i.length

/-- The instruction step: fetch, decode, execute (60_exceptions.md R331). -/
def instructionStep (s : State) : Host.Outcome State Fault Refusal :=
  let r := fetchInstr s
  exec r.1 r.2

/-- After the boundary's events: reset if requested, else IRQ if asserted with I = 0, else the instruction
(60_exceptions.md R315, R331). -/
def afterEvents (input : BoundaryInput) (s : State) : Host.Outcome State Fault Refusal :=
  match input.reset with
  | .warm => .next (resetSequence s)
  | .cold draws => .next (coldReset draws s)
  | .none => if input.irqLine && !s.p.i then .next (irqEntry s) else instructionStep s

/-- The boundary step of a machine that is running (60_exceptions.md R331). -/
def runBoundary (s : State) : Host.Outcome State Fault Refusal :=
  let s1 := boundaryEvents (boundaryInput s) (takeInput s)
  match s1.fault with
  | some f => .fault f
  | none => afterEvents (boundaryInput s) s1

/-- `step()` (60_exceptions.md R331): a marked state has no step (10_state.md R37), the power-on reset comes first
(70_reset_and_hazards.md R358), and a boundary at END_PC ends the run (R334; log 13). -/
def boundaryStep (s : State) : Host.Outcome State Fault Refusal :=
  match s.refusal, s.fault with
  | some r, _ => .refused r
  | none, some f => .fault f
  | none, none =>
    if s.powerOn then .next (powerOnReset s)
    else if s.pc = s.cfg.endPc then .refused .runEnded
    else runBoundary s

/-! ### The model's label of a step -/

/-- The exception causes (60_exceptions.md R310, D41): a label for a step, not state. -/
inductive Cause where
  | brk | illegal | irq | reset
  deriving DecidableEq, Repr

/-- The model-only tag of a cause (60_exceptions.md R310). -/
def Cause.tag : Cause → Nat
  | .brk => 0
  | .illegal => 1
  | .irq => 2
  | .reset => 3

/-- The cause of an instruction, if it is an exception of its own. -/
def instrCause (i : Instr) : Option Cause :=
  match i with
  | .brk => some .brk
  | _ => if i.row.op = .ill then some .illegal else none

/-- The cause of the next step, none for an ordinary instruction and where there is no step (60_exceptions.md R310, R354). -/
def stepCause (s : State) : Option Cause :=
  match s.refusal, s.fault with
  | none, none =>
    if s.powerOn then some .reset
    else if s.pc = s.cfg.endPc then none
    else
      let s1 := boundaryEvents (boundaryInput s) (takeInput s)
      if s1.fault.isSome then none
      else
        match (boundaryInput s).reset with
        | .warm => some .reset
        | .cold _ => some .reset
        | .none =>
          if (boundaryInput s).irqLine && !s1.p.i then some .irq else instrCause (fetchInstr s1).1
  | _, _ => none

/-! ### Placing an instruction where the next step fetches it -/

/-- Make the next boundary one that fetches: no marks, the power-on reset done, END_PC elsewhere, and a quiet boundary
input (log 9). Only what stands in the way is changed. -/
def readyToFetch (s : State) : State :=
  { s with
    fault := none
    refusal := none
    powerOn := false
    cfg := { s.cfg with endPc := if s.cfg.endPc = s.pc then s.pc - 1 else s.cfg.endPc }
    inputs :=
      match s.inputs with
      | [] => []
      | _ :: rest => BoundaryInput.quiet :: rest }

/-- Make a read of `addr` give `v`: write the storage that answers it, or append the draw it takes. An IIe status address
is hooked first, since its bit 7 is not the environment's. -/
def placeByte (addr : Word) (v : Byte) (s : State) : State :=
  let r := resolve s.cfg addr false s.sw
  if s.cfg.isHooked addr then { s with ioDraws := s.ioDraws ++ [v] }
  else
    match r.kind with
    | .slots =>
      { s with
        ioDraws := s.ioDraws ++ [v]
        cfg :=
          if (statusBit addr s.sw).isSome then { s.cfg with hooked := ⟨addr, addr⟩ :: s.cfg.hooked } else s.cfg }
    | .rom => { s with rom := s.rom.write r.offset v }
    | .main | .lcBank1 | .lcBank2 | .lcOther => { s with ram := s.ram.write (physOf s.cfg r) v }

/-- Place bytes at an address and the ones after it; the draws already held come after those the bytes take. -/
def placeBytes (addr : Word) (bs : List Byte) (s : State) : State :=
  let s1 := (bs.zipIdx.foldl (fun t b => placeByte (addr + BitVec.ofNat 16 b.2) b.1 t) { s with ioDraws := [] })
  { s1 with ioDraws := s1.ioDraws ++ s.ioDraws }

end Sys2Proof.Machine
end

