-- ==== Sys2Proof/Machine/Step.lean ====
section
/-! DEFINITION. One step of the machine, and the placing of an instruction where the next step fetches it. -/

namespace Sys2Proof.Machine

/-- `step()` (60_exceptions.md R331). -/
def step (s : State) : Host.Outcome State Fault Refusal := boundaryStep s

/-- `s` with an instruction of `nbits` bits, numbered as spec/opcode_table.json numbers them, placed where the next step
fetches it (log 9). -/
def State.withFetchWord (s : State) (nbits w : Nat) : State :=
  placeBytes s.pc (tableWordBytes nbits w) (readyToFetch s)

end Sys2Proof.Machine
end

