-- ==== Sys2Proof/Safety.lean ====
section
/-! DEFINITION. The terms claims are stated in: a run of bus cycles and its trace, the bus sequence of each operand form as
40_addressing.md lists it, the state invariant, and what a boundary that executes an instruction is. -/

namespace Sys2Proof.Machine

/-! ### Traces of bus cycles -/

/-- A read cycle at an address. -/
def BusEvent.IsRead (e : BusEvent) (addr : Word) : Prop := e.type = .peek ∧ e.addr = addr

/-- A write cycle of a byte at an address. -/
def BusEvent.IsWrite (e : BusEvent) (addr : Word) (v : Byte) : Prop := e.type = .poke ∧ e.addr = addr ∧ e.value = v

/-- `u` is what the bus cycles recorded as `es` leave of `s`, each made in the state the one before it left
(20_memory.md R93): a PEEK record is that of a read cycle (R68), a POKE record that of a write cycle (R69). -/
def Cycles : State → List BusEvent → State → Prop
  | s, [], u => u = s
  | s, e :: es, u =>
    match e.type with
    | .peek => e = peekEvent e.addr s ∧ Cycles (afterRead e.addr s) es u
    | .poke => e = pokeEvent e.addr e.value s ∧ Cycles (memWrite e.addr e.value s) es u

/-- The reads of an indexed operand (40_addressing.md R141, R146): one at the effective address, or, when the high byte of
the result differs from that of the base, one at the unfixed address before it. -/
def IndexedReads (base : Word) (idx : Byte) (es : List BusEvent) (v : Byte) : Prop :=
  let ea := base + zext16 idx
  if hiByte ea = hiByte base then ∃ e, es = [e] ∧ e.IsRead ea ∧ v = e.value
  else ∃ e1 e2, es = [e1, e2] ∧ e1.IsRead (wordOf (hiByte base) (loByte ea)) ∧ e2.IsRead ea ∧ v = e2.value

/-- The cycles of a read-class operand after its operand fetches, and the value they obtain (40_addressing.md R143 to
R149). -/
def ReadCycles (m : ReadMode) (s : State) (es : List BusEvent) (v : Byte) : Prop :=
  match m with
  | .imm k => es = [] ∧ v = k
  | .zp p => ∃ e, es = [e] ∧ e.IsRead (zext16 p) ∧ v = e.value
  | .zpx p => ∃ e1 e2, es = [e1, e2] ∧ e1.IsRead (zext16 p) ∧ e2.IsRead (zext16 (p + s.x)) ∧ v = e2.value
  | .zpy p => ∃ e1 e2, es = [e1, e2] ∧ e1.IsRead (zext16 p) ∧ e2.IsRead (zext16 (p + s.y)) ∧ v = e2.value
  | .abs addr => ∃ e, es = [e] ∧ e.IsRead addr ∧ v = e.value
  | .abx base => IndexedReads base s.x es v
  | .aby base => IndexedReads base s.y es v
  | .izx p => ∃ e1 e2 e3 e4, es = [e1, e2, e3, e4] ∧ e1.IsRead (zext16 p) ∧ e2.IsRead (zext16 (p + s.x)) ∧
      e3.IsRead (zext16 (p + s.x + 1)) ∧ e4.IsRead (wordOf e3.value e2.value) ∧ v = e4.value
  | .izy p => ∃ e1 e2 es', es = e1 :: e2 :: es' ∧ e1.IsRead (zext16 p) ∧ e2.IsRead (zext16 (p + 1)) ∧
      IndexedReads (wordOf e2.value e1.value) s.y es' v

/-- The one unfixed read of an indexed write-class or RMW-class operand, made whether or not a page is crossed
(40_addressing.md R147, R149), and the effective address. -/
def IndexedDummy (base : Word) (idx : Byte) (es : List BusEvent) (ea : Word) : Prop :=
  ea = base + zext16 idx ∧ ∃ e, es = [e] ∧ e.IsRead (wordOf (hiByte base) (loByte ea))

/-- The cycles of a write-class operand between its operand fetches and its write, and the effective address
(40_addressing.md R144, R145, R147 to R149). -/
def WriteCycles (m : WriteMode) (s : State) (es : List BusEvent) (ea : Word) : Prop :=
  match m with
  | .zp p => es = [] ∧ ea = zext16 p
  | .zpx p => (∃ e, es = [e] ∧ e.IsRead (zext16 p)) ∧ ea = zext16 (p + s.x)
  | .zpy p => (∃ e, es = [e] ∧ e.IsRead (zext16 p)) ∧ ea = zext16 (p + s.y)
  | .abs addr => es = [] ∧ ea = addr
  | .abx base => IndexedDummy base s.x es ea
  | .aby base => IndexedDummy base s.y es ea
  | .izx p => ∃ e1 e2 e3, es = [e1, e2, e3] ∧ e1.IsRead (zext16 p) ∧ e2.IsRead (zext16 (p + s.x)) ∧
      e3.IsRead (zext16 (p + s.x + 1)) ∧ ea = wordOf e3.value e2.value
  | .izy p => ∃ e1 e2 es', es = e1 :: e2 :: es' ∧ e1.IsRead (zext16 p) ∧ e2.IsRead (zext16 (p + 1)) ∧
      IndexedDummy (wordOf e2.value e1.value) s.y es' ea

/-- The cycles of an RMW-class operand in memory after its operand fetches, the effective address and the value read
(40_addressing.md R144, R145, R147, R152): the read, the write of the unmodified value, the write of `f` of it. -/
def RmwCycles (m : RmwMode) (f : Byte → Byte) (s : State) (es : List BusEvent) (ea : Word) (v : Byte) : Prop :=
  ∃ pre e1 e2 e3, es = pre ++ [e1, e2, e3] ∧ e1.IsRead ea ∧ v = e1.value ∧ e2.IsWrite ea v ∧ e3.IsWrite ea (f v) ∧
    match m with
    | .acc => False
    | .zp p => pre = [] ∧ ea = zext16 p
    | .zpx p => (∃ e, pre = [e] ∧ e.IsRead (zext16 p)) ∧ ea = zext16 (p + s.x)
    | .abs addr => pre = [] ∧ ea = addr
    | .abx base => IndexedDummy base s.x pre ea

/-- The flags with N and Z of a byte (00_scope.md R12). -/
def nzOf (p : Flags) (v : Byte) : Flags := { p with n := v.getLsbD 7, z := decide (v = 0) }

/-! ### What a completed instruction is, by shape -/

/-- `i`, opcode `code`, completes by the read-class cycles of `m`, which obtain a byte, and then `result`. -/
def ReadsThen (code : Byte) (i : Instr) (m : ReadMode) (s : State) (result : Byte → State → State) : Prop :=
  i.opcode = code ∧ ∃ es v u, ReadCycles m s es v ∧ Cycles s es u ∧ exec i s = .next (result v u)

/-- `i`, opcode `code`, completes by the write-class cycles of `m` and one write of `v` at the effective address. -/
def StoresByte (code : Byte) (i : Instr) (m : WriteMode) (v : Byte) (s : State) : Prop :=
  i.opcode = code ∧ ∃ es ea w u, WriteCycles m s es ea ∧ w.IsWrite ea v ∧ Cycles s (es ++ [w]) u ∧ exec i s = .next u

/-- `i`, opcode `code`, completes by the RMW-class cycles of `m` with `f`, and sets the flags the byte read gives. -/
def Modifies (code : Byte) (i : Instr) (m : RmwMode) (f : Byte → Byte) (s : State) (flags : Byte → Flags) : Prop :=
  i.opcode = code ∧ ∃ es ea v u, RmwCycles m f s es ea v ∧ Cycles s es u ∧ exec i s = .next { u with p := flags v }

/-- `i`, opcode `code`, completes by the one read at PC of the implied mode (40_addressing.md R142) and then `result`. -/
def ImpliedThen (code : Byte) (i : Instr) (s : State) (result : State → State) : Prop :=
  i.opcode = code ∧ ∃ e u, e.IsRead s.pc ∧ Cycles s [e] u ∧ exec i s = .next (result u)

/-- `i`, opcode `code`, is a branch with condition `cond` and displacement `d` (40_addressing.md R151): not taken it has no
further cycle; taken it reads the fall-through address, and across a page the unfixed target too. -/
def BranchesIf (code : Byte) (i : Instr) (cond : Bool) (d : Byte) (s : State) : Prop :=
  let t := s.pc + sext16 d
  i.opcode = code ∧
    if cond = false then exec i s = .next s
    else if hiByte t = hiByte s.pc then
      ∃ e u, e.IsRead s.pc ∧ Cycles s [e] u ∧ exec i s = .next { u with pc := t }
    else
      ∃ e1 e2 u, e1.IsRead s.pc ∧ e2.IsRead (wordOf (hiByte s.pc) (loByte t)) ∧ Cycles s [e1, e2] u ∧
        exec i s = .next { u with pc := t }

/-- The condition of a branch (44_control_flow.md R250); the other operations have none. -/
def branchCondition (op : Operation) (p : Flags) : Option Bool :=
  match op with
  | .bpl => some (!p.n)
  | .bmi => some p.n
  | .bvc => some (!p.v)
  | .bvs => some p.v
  | .bcc => some (!p.c)
  | .bcs => some p.c
  | .bne => some (!p.z)
  | .beq => some p.z
  | _ => none

/-- The five cycles of an exception entry (60_exceptions.md R313): PC high, PC low and P pushed from `sp` down, then the
two vector bytes read, low first, which give `target`. -/
def EntryCycles (vector pushedPc : Word) (pByte sp : Byte) (es : List BusEvent) (target : Word) : Prop :=
  ∃ w1 w2 w3 r1 r2, es = [w1, w2, w3, r1, r2] ∧ w1.IsWrite (stackAddr sp) (hiByte pushedPc) ∧
    w2.IsWrite (stackAddr (sp - 1)) (loByte pushedPc) ∧ w3.IsWrite (stackAddr (sp - 2)) pByte ∧
    r1.IsRead vector ∧ r2.IsRead (vector + 1) ∧ target = wordOf r2.value r1.value

/-- `i` completes as BRK does (44_control_flow.md R263): the second byte fetched and discarded, then the entry through
0xFFFE with that byte's address plus one pushed, B = 1, S three lower and I = 1. -/
def EntersBreak (code : Byte) (i : Instr) (s : State) : Prop :=
  i.opcode = code ∧ ∃ e es target u, e.IsRead s.pc ∧ EntryCycles 0xFFFE (s.pc + 1) (packP true s.p) s.sp es target ∧
    Cycles s (e :: es) u ∧ exec i s = .next { u with pc := target, sp := s.sp - 3, p := { s.p with i := true } }

/-- What the reset sequence leaves (70_reset_and_hazards.md R351, R352): the switches reset before the first cycle, eight
reads, S three lower, I = 1 and PC the reset vector. -/
def ResetRun (s t : State) : Prop :=
  ∃ sw d1 d2 d3 k1 k2 k3 r1 r2 u,
    (∀ f : Switch, sw.get f = if f.isLanguageCard then s.sw.get f else f == .text) ∧
    d1.IsRead s.pc ∧ d2.IsRead s.pc ∧ d3.IsRead s.pc ∧
    k1.IsRead (stackAddr s.sp) ∧ k2.IsRead (stackAddr (s.sp - 1)) ∧ k3.IsRead (stackAddr (s.sp - 2)) ∧
    r1.IsRead 0xFFFC ∧ r2.IsRead 0xFFFD ∧
    Cycles { s with sw := sw } [d1, d2, d3, k1, k2, k3, r1, r2] u ∧
    t = { u with sp := s.sp - 3, p := { s.p with i := true }, pc := wordOf r2.value r1.value }

/-! ### Frames -/

/-- The registers A, X, Y, S, PC and the flags are the same. -/
def RegistersKept (s t : State) : Prop :=
  t.a = s.a ∧ t.x = s.x ∧ t.y = s.y ∧ t.sp = s.sp ∧ t.pc = s.pc ∧ t.p = s.p

/-- The RAM offset a write of `addr` stores to in this state, none where it stores nothing. -/
def storeTarget (addr : Word) (s : State) : Option Nat := ramTarget s.cfg (resolve s.cfg addr true s.sw)

/-- Every RAM byte other than those at the listed offsets reads as before. -/
def RamKeptBut (targets : List (Option Nat)) (s t : State) : Prop :=
  ∀ k : Nat, some k ∉ targets → t.ram.read k = s.ram.read k

/-- The operations that write A (10_state.md R28); the shifts and rotates do so in their accumulator form only. -/
def writesA (op : Operation) (mode : Mode) : Bool :=
  [.lda, .pla, .txa, .tya, .adc, .sbc, .and, .ora, .eor].contains op ||
    ([.asl, .lsr, .rol, .ror].contains op && mode == .acc)

/-- The operations that write RAM: the stores, the RMW class and those that push. -/
def writesRam (op : Operation) (mode : Mode) : Bool :=
  [.sta, .stx, .sty, .inc, .dec, .pha, .php, .jsr, .brk, .ill].contains op ||
    ([.asl, .lsr, .rol, .ror].contains op && mode != .acc)

/-- The operations that write N, and those that write Z (10_state.md R28: the same list). -/
def writesNZ (op : Operation) : Bool :=
  [.adc, .sbc, .and, .ora, .eor, .bit, .cmp, .cpx, .cpy, .inc, .dec, .inx, .iny, .dex, .dey, .asl, .lsr, .rol, .ror,
    .lda, .ldx, .ldy, .tax, .tay, .txa, .tya, .tsx, .pla, .plp, .rti].contains op

/-! ### The environment's PRE_STEP sweeps -/

/-- Each sweep leaves a PC other than the one before it (60_exceptions.md R319). -/
def Moving : Word → List Word → Prop
  | _, [] => True
  | pc, w :: ws => w ≠ pc ∧ Moving w ws

/-- The PC the sweeps leave. -/
def lastPc (pc : Word) (ws : List Word) : Word := ws.getLastD pc

/-! ### Addresses -/

/-- A read of `addr` is answered by RAM or ROM storage: the address is not hooked and not in the I/O page
(20_memory.md R68). -/
def PlainRead (s : State) (addr : Word) : Prop :=
  s.cfg.isHooked addr = false ∧ (addr < 0xC000 ∨ 0xD000 ≤ addr)

/-- The stack page is RAM a push stores to and a pull reads back: no stack address is hooked, and there is auxiliary
storage if ALTZP sends the page there (20_memory.md R61, R65). -/
def StackBacked (s : State) : Prop :=
  (∀ k : Byte, s.cfg.isHooked (stackAddr k) = false) ∧
    (s.cfg.auxPresent = true ∨ s.cfg.altzpMode = .literal ∨ s.sw.altzp = false)

/-! ### Boundaries -/

/-- `s` is at a boundary that can run: no mark, the power-on reset done, not at END_PC (60_exceptions.md R331). -/
def Running (s : State) : Prop :=
  s.refusal = none ∧ s.fault = none ∧ s.powerOn = false ∧ s.pc ≠ s.cfg.endPc

/-- The state the environment's events leave at this boundary (60_exceptions.md R315). -/
def eventsState (s : State) : State := boundaryEvents (boundaryInput s) (takeInput s)

/-- This boundary executes an instruction: it can run, no event faults, no reset is requested and no IRQ is taken
(60_exceptions.md R331). -/
def Executes (s : State) : Prop :=
  Running s ∧ (eventsState s).fault = none ∧ (boundaryInput s).reset = .none ∧
    ((boundaryInput s).irqLine = false ∨ (eventsState s).p.i = true)

/-- The environment does nothing at this boundary. -/
def QuietBoundary (s : State) : Prop := boundaryInput s = BoundaryInput.quiet

/-- `cleanLaunch` (70_reset_and_hazards.md R359): unmarked, nothing logged, and the power-on reset is the first step to come. -/
def CleanLaunch (s : State) : Prop :=
  s.fault = none ∧ s.refusal = none ∧ s.cycles = 0 ∧ s.buslog = [] ∧ s.swlog = [] ∧ s.powerOn = true

/-- The two vector bytes, low byte first, that the reset sequence run from `s` reads in r7 and r8
(70_reset_and_hazards.md R351): each by the event path, in the state the cycles before it leave. -/
def resetVectorBytes (s : State) : Byte × Byte :=
  let lo := memRead resetVector (beforeResetVector s)
  (lo.1, (memRead (resetVector + 1) lo.2).1)

/-- `romVector(v)` (70_reset_and_hazards.md R359): the two vector bytes the power-on reset will read are those of `v`, low
byte first. The switches that count are those the reset's own reads leave, and at a hooked address the byte is the one the
environment supplies. -/
def RomVector (v : Word) (s : State) : Prop :=
  resetVectorBytes { s with powerOn := false } = (loByte v, hiByte v)

/-- Whether the vector reads of a reset from `s` are routed to language-card RAM (20_memory.md R58): as LC_READ_RAM is,
which the reset keeps (70_reset_and_hazards.md R352), unless PC lies in 0xC080-0xC08F, where r1 to r3 select it by the low
two bits of the address (20_memory.md R80, R87). -/
def vectorInRam (s : State) : Bool :=
  s.cfg.lcPresent &&
    if 0xC080 ≤ s.pc ∧ s.pc ≤ 0xC08F then s.pc.getLsbD 0 == s.pc.getLsbD 1 else s.sw.lcReadRam

/-! ### The invariant -/

/-- The switches only an IIe has (20_memory.md R86): flags 4 to 9, 14 and 15. -/
def iieOnly : List Switch := [.store80, .ramrd, .ramwrt, .altzp, .col80, .altcharset, .intcxrom, .slotc3rom]

/-- What every reachable state meets: the configuration is legal (60_exceptions.md R323), both stores are in canonical form
and inside their sizes (10_state.md R31), one bus event per cycle with its own number (R33, R34), switch-log entries of
cycles already made (R32), and the IIe switches clear on a II+ (20_memory.md R86). -/
structure State.Inv (s : State) : Prop where
  ramSize : s.cfg.ramSizeOk = true
  ramForm : s.ram.wf = true
  ramFits : s.ram.below s.cfg.ramSize = true
  romForm : s.rom.wf = true
  romFits : s.rom.below s.cfg.romSize = true
  cyclesCount : s.buslog.length = s.cycles
  eventNumbers : ∀ (k : Nat) (e : BusEvent), s.buslog[k]? = some e → e.cycle = k
  switchEntries : ∀ e ∈ s.swlog, e.cycle < s.cycles
  iiPlusSwitches : s.cfg.machine = .iiPlus → ∀ f ∈ iieOnly, s.sw.get f = false

end Sys2Proof.Machine
end

