-- ==== Sys2Proof/Certificates/Slice0/Obligations.lean ====
section
/-! DEFINITION. The statements for the provers. Each cites the rules of spec/ it formalises; a title or a docstring says so
where a clause is the model's own choice and names its log entry. -/

open Sys2Proof Sys2Proof.Machine

/-- O1 (derived: R120, R121, R122, R124). For every well-formed instruction with any operand and any bytes after
it, decoding its encoded bytes answers that instruction and those bytes: no bit of an encoding is dropped. -/
def Obligations.DecodeInvertsEncode : Prop :=
  ∀ (i : Instr) (rest : List Byte), i.wf = true → decode (encode i ++ rest) = .ok (i, rest)

/-- O2 (derived: R120, R121, R122). For every byte list that decodes to an instruction and a rest, encoding that
instruction and appending the rest gives the same byte list, and the instruction takes one, two or three bytes
as its mode has operand bytes. -/
def Obligations.EncodeInvertsDecode : Prop :=
  ∀ (bs rest : List Byte) (i : Instr), decode bs = .ok (i, rest) →
    encode i ++ rest = bs ∧ i.length = 1 + i.row.mode.operandBytes

/-- O3 (stated: R15, R121). Every three bytes or more decode; what they decode to has the first byte as its opcode;
and operation, mode and length are the same for any two byte lists with the same first byte. -/
def Obligations.EveryOpcodeByteDecodes : Prop :=
  (∀ (op b1 b2 : Byte) (rest : List Byte), ∃ i rest', decode (op :: b1 :: b2 :: rest) = .ok (i, rest') ∧ i.opcode = op ∧
      (i.row.op = .ill → i.length = 1)) ∧
    ∀ (op : Byte) (bs bs' r r' : List Byte) (i i' : Instr), decode (op :: bs) = .ok (i, r) →
      decode (op :: bs') = .ok (i', r') → i.row.op = i'.row.op ∧ i.row.mode = i'.row.mode ∧ i.length = i'.length

/-- O4 (derived: R125). An opcode byte is marked undocumented in the map exactly when it is one of the 105 bytes
the rule lists. -/
def Obligations.UndocumentedBytesAreTheListed : Prop :=
  ∀ op : Byte, (opcodeRow op).op = .ill ↔ op ∈ ([
      0x02, 0x03, 0x04, 0x07, 0x0B, 0x0C, 0x0F, 0x12, 0x13, 0x14, 0x17, 0x1A, 0x1B, 0x1C, 0x1F, 0x22, 0x23,
      0x27, 0x2B, 0x2F, 0x32, 0x33, 0x34, 0x37, 0x3A, 0x3B, 0x3C, 0x3F, 0x42, 0x43, 0x44, 0x47, 0x4B, 0x4F,
      0x52, 0x53, 0x54, 0x57, 0x5A, 0x5B, 0x5C, 0x5F, 0x62, 0x63, 0x64, 0x67, 0x6B, 0x6F, 0x72, 0x73, 0x74,
      0x77, 0x7A, 0x7B, 0x7C, 0x7F, 0x80, 0x82, 0x83, 0x87, 0x89, 0x8B, 0x8F, 0x92, 0x93, 0x97, 0x9B, 0x9C,
      0x9E, 0x9F, 0xA3, 0xA7, 0xAB, 0xAF, 0xB2, 0xB3, 0xB7, 0xBB, 0xBF, 0xC2, 0xC3, 0xC7, 0xCB, 0xCF, 0xD2,
      0xD3, 0xD4, 0xD7, 0xDA, 0xDB, 0xDC, 0xDF, 0xE2, 0xE3, 0xE7, 0xEB, 0xEF, 0xF2, 0xF3, 0xF4, 0xF7, 0xFA,
      0xFB, 0xFC, 0xFF] : List Byte)

/-- O5 (derived: R124, R127, R180, R204, R234, R250, R259, R280). A documented operation has an opcode in a mode
exactly when the Encoding line of its own rule lists that mode, and then exactly one opcode: the assembler
table finds it. -/
def Obligations.ModesOfEachOperation : Prop :=
  ∀ (op : Operation) (mode : Mode), op ≠ .ill →
    (mode ∈ op.modes ↔ ∃ b : Byte, (opcodeRow b).op = op ∧ (opcodeRow b).mode = mode) ∧
    ∀ b : Byte, (opcodeRow b).op = op → (opcodeRow b).mode = mode → opcodeOf op mode = some b

/-- O6 (derived: R122, R127). Fifteen instructions written out byte by byte from the encodings of the rules, one or
more per family, decode as they should, operands low byte first. -/
def Obligations.KnownWordsDecode : Prop :=
  decode [0xA9, 0x41] = .ok (.ldaImm 0x41, []) ∧ decode [0xB6, 0x7F] = .ok (.ldxZpy 0x7F, []) ∧
    decode [0x9D, 0x00, 0x04] = .ok (.staAbx 0x0400, []) ∧ decode [0xAA] = .ok (.tax, []) ∧
    decode [0x69, 0x46] = .ok (.adcImm 0x46, []) ∧ decode [0xCE, 0x34, 0x12] = .ok (.decAbs 0x1234, []) ∧
    decode [0x31, 0x20] = .ok (.andIzy 0x20, []) ∧ decode [0x2C, 0x83, 0xC0] = .ok (.bitAbs 0xC083, []) ∧
    decode [0x0A] = .ok (.aslAcc, []) ∧ decode [0xD0, 0xF9] = .ok (.bne 0xF9, []) ∧
    decode [0x6C, 0xFF, 0x02] = .ok (.jmpInd 0x02FF, []) ∧ decode [0x20, 0x34, 0x12] = .ok (.jsr 0x1234, []) ∧
    decode [0x00, 0x77] = .ok (.brk, [0x77]) ∧ decode [0x48] = .ok (.pha, []) ∧
    decode [0xFF] = .ok (.illFF, [])

/-- O7 (stated: R68). MemRead: the value is the environment byte at a hooked address, the device byte in the I/O
page, the ROM byte, or the RAM byte of the resolved offset; one PEEK record is appended, the side effects of a
read act on that state, the cycle counter goes up by one, and RAM, ROM and the registers are untouched. -/
def Obligations.ReadCycle : Prop :=
  ∀ (addr : Word) (s : State),
    let r := resolve s.cfg addr false s.sw
    let hooked := s.cfg.isHooked addr
    let value :=
      if hooked then ioByte addr s
      else match r.kind with
        | .slots => slotsRead s.cfg addr s.sw (ioByte addr s)
        | .rom => s.rom.read r.offset
        | _ => s.ram.read (physOf s.cfg r)
    let t := (memRead addr s).2
    let u := sideEffects addr true s
    (memRead addr s).1 = value ∧
      t.buslog = s.buslog ++ [⟨s.cycles, .peek, addr, r, value, hooked, false⟩] ∧
      t.sw = u.sw ∧ t.swlog = u.swlog ∧ t.cycles = s.cycles + 1 ∧
      t.ram = s.ram ∧ t.rom = s.rom ∧ RegistersKept s t

/-- O8 (stated: R69). MemWrite: one POKE record is appended; the resolved RAM offset, unless the write is
suppressed, then reads as the byte written and every other offset as before; a write to ROM, to the I/O page,
or to auxiliary memory that does not exist stores nothing; the side effects of a write act whether or not it is
suppressed; the counter goes up by one. RAM must be in canonical form. -/
def Obligations.WriteCycle : Prop :=
  ∀ (addr : Word) (v : Byte) (s : State), s.ram.wf = true →
    let r := resolve s.cfg addr true s.sw
    let suppressed := writeSuppressed addr v s
    let stored : Option Nat :=
      match r.kind with
      | .slots | .rom => none
      | _ =>
        if suppressed = true then none
        else if r.isAux = true then (if s.cfg.ramSize > 65536 then some (0x10000 + r.offset) else none)
        else some r.offset
    let t := memWrite addr v s
    let u := sideEffects addr false s
    (suppressed = true → s.cfg.isHooked addr = true) ∧
      t.buslog = s.buslog ++ [⟨s.cycles, .poke, addr, r, v, false, suppressed⟩] ∧
      (∀ k, t.ram.read k = if stored = some k then v else s.ram.read k) ∧ t.ram.wf = true ∧
      t.sw = u.sw ∧ t.swlog = u.swlog ∧ t.cycles = s.cycles + 1 ∧ t.rom = s.rom ∧ RegistersKept s t

/-- O9 (stated: R56, R57, R58, R59, R60). Below 0xC000 MAIN with the address as offset; 0xC000-0xCFFF SLOTS; from
0xD000 ROM when the language card is absent or the read or write control says so, with the offset counted from
the end of the address space; else LC bank 1 or 2 for 0xD000-0xDFFF and LC_OTHER above. ROM and SLOTS are never
auxiliary. -/
def Obligations.ResolverKinds : Prop :=
  ∀ (cfg : Config) (addr : Word) (isWrite : Bool) (sw : Registry),
    let n := addr.toNat
    let r := resolve cfg addr isWrite sw
    let toRom := cfg.lcPresent = false ∨ (isWrite = false ∧ sw.lcReadRam = false) ∨
      (isWrite = true ∧ sw.lcWriteRam = false)
    let romSize := if cfg.machine = .iiPlus then 12288 else 16384
    (n < 0xC000 → r.kind = .main ∧ r.offset = n) ∧
      (0xC000 ≤ n → n < 0xD000 → r = ⟨.slots, n - 0xC000, false⟩) ∧
      (0xD000 ≤ n → toRom → r = ⟨.rom, n - (0x10000 - romSize), false⟩) ∧
      (0xD000 ≤ n → ¬ toRom → sw.lcBank1 = true → n < 0xE000 → r.kind = .lcBank1 ∧ r.offset = n - 0x1000) ∧
      (0xD000 ≤ n → ¬ toRom → sw.lcBank1 = false → n < 0xE000 → r.kind = .lcBank2 ∧ r.offset = n) ∧
      (0xE000 ≤ n → ¬ toRom → r.kind = .lcOther ∧ r.offset = n)

/-- O10 (stated: R61, R62, R63, R64). The ALTZP term in its two modes, the 80STORE term over the display pages, the
RAMRD or RAMWRT term over 0x0200-0xBFFF, and the two ways the terms combine; false for ROM and SLOTS. -/
def Obligations.AuxiliaryBank : Prop :=
  ∀ (cfg : Config) (addr : Word) (isWrite : Bool) (sw : Registry),
    let n := addr.toNat
    let r := resolve cfg addr isWrite sw
    let isLc := r.kind = .lcBank1 ∨ r.kind = .lcBank2 ∨ r.kind = .lcOther
    let auxZp := sw.altzp = true ∧
      match cfg.altzpMode with
      | .standard => (r.kind = .main ∧ n < 0x0200) ∨ isLc
      | .literal => 0x0200 ≤ n
    let inDisplay := (0x0400 ≤ n ∧ n ≤ 0x07FF) ∨ (sw.hires = true ∧ 0x2000 ≤ n ∧ n ≤ 0x3FFF)
    let auxDisp := r.kind = .main ∧ sw.store80 = true ∧ inDisplay ∧ sw.page2 = true
    let auxGen := r.kind = .main ∧ 0x0200 ≤ n ∧ n ≤ 0xBFFF ∧ (if isWrite = true then sw.ramwrt else sw.ramrd) = true
    (r.kind = .rom ∨ r.kind = .slots → r.isAux = false) ∧
      (r.kind = .main ∨ isLc →
        match cfg.store80Mode with
        | .or => r.isAux = true ↔ auxZp ∨ auxDisp ∨ auxGen
        | .override =>
          (r.kind = .main ∧ sw.store80 = true ∧ inDisplay → (r.isAux = true ↔ auxZp ∨ sw.page2 = true)) ∧
            (¬ (r.kind = .main ∧ sw.store80 = true ∧ inDisplay) → (r.isAux = true ↔ auxZp ∨ auxGen)))

/-- O11 (derived: R65, R66). Two accesses, of any addresses, directions and switch states, that store to the same
RAM offset have the same resolution; and that offset lies inside RAM of a legal size. -/
def Obligations.StorageIsReachedOneWay : Prop :=
  ∀ (cfg : Config) (addr addr' : Word) (w w' : Bool) (sw sw' : Registry) (k : Nat),
    ramTarget cfg (resolve cfg addr w sw) = some k →
      (ramTarget cfg (resolve cfg addr' w' sw') = some k → resolve cfg addr w sw = resolve cfg addr' w' sw') ∧
        (cfg.ramSizeOk = true → k < cfg.ramSize)

/-- O12 (derived: R98). Write v1 at an unhooked address under switches sw1, then v2 at the same address under
switches sw2 that resolve it to another backed RAM location; a read under sw1 then gives v1 and under sw2 gives
v2. Reads and writes must be routed alike in each switch state, and RAM be in canonical form. -/
def Obligations.BankIsolation : Prop :=
  ∀ (s : State) (addr : Word) (sw1 sw2 : Registry) (v1 v2 : Byte) (k1 k2 : Nat),
    s.ram.wf = true → s.cfg.isHooked addr = false → addr < 0xC000 ∨ 0xD000 ≤ addr →
    ramTarget s.cfg (resolve s.cfg addr true sw1) = some k1 → ramSource s.cfg (resolve s.cfg addr false sw1) = some k1 →
    ramTarget s.cfg (resolve s.cfg addr true sw2) = some k2 → ramSource s.cfg (resolve s.cfg addr false sw2) = some k2 →
    k1 ≠ k2 →
    let t := memWrite addr v2 { memWrite addr v1 { s with sw := sw1 } with sw := sw2 }
    (memRead addr { t with sw := sw1 }).1 = v1 ∧ (memRead addr { t with sw := sw2 }).1 = v2

/-- O13 (derived: R66, R93, R96). After a write cycle that stores at a RAM offset, and any further cycles none of
which stores at that offset, a read of any unhooked address that resolves to it gives the byte written. RAM
must be in canonical form. -/
def Obligations.ReadSeesTheLastWrite : Prop :=
  ∀ (s u : State) (es : List BusEvent) (addr addr' : Word) (v : Byte) (k : Nat),
    s.ram.wf = true → storeTarget addr s = some k → writeSuppressed addr v s = false →
    Cycles (memWrite addr v s) es u → (∀ e ∈ es, e.type = .poke → ramTarget s.cfg e.resolution ≠ some k) →
    s.cfg.isHooked addr' = false → ramSource s.cfg (resolve s.cfg addr' false u.sw) = some k →
    (memRead addr' u).1 = v

/-- O14 (stated: R74). set and set_and_notify leave the flag at the value given and every other flag alone; set
appends nothing; set_and_notify appends one entry with the present cycle number exactly when the old value
differs; nothing else changes. -/
def Obligations.SwitchPrimitives : Prop :=
  ∀ (f g : Switch) (b : Bool) (s : State),
    (setSilent f b s).sw.get f = b ∧ (setAndNotify f b s).sw.get f = b ∧
      (g ≠ f → (setSilent f b s).sw.get g = s.sw.get g ∧ (setAndNotify f b s).sw.get g = s.sw.get g) ∧
      setSilent f b s = { s with sw := (setSilent f b s).sw } ∧
      setAndNotify f b s = { s with
        sw := (setAndNotify f b s).sw
        swlog := if s.sw.get f = b then s.swlog else s.swlog ++ [⟨s.cycles, f, b⟩] }

/-- O15 (derived: R76, R322). get, set and set_and_notify with an index of 16 or more set the fault mark to
BadSwitchIndex and change nothing else; with an index below 16 they act on the switch of that index and raise
nothing; and the boundary step of a running machine whose environment passes such an index, anywhere among the
indices it passes, ends in that fault (that the step answers the fault itself and the form of the environment
call are the model's choice, logs 12 and 17). -/
def Obligations.SwitchIndexOutOfRange : Prop :=
  (∀ (f : Nat) (b : Bool) (s : State), 16 ≤ f →
      registryGet f s = .error { s with fault := some .badSwitchIndex } ∧
        registrySet f b s = { s with fault := some .badSwitchIndex } ∧
        registrySetAndNotify f b s = { s with fault := some .badSwitchIndex }) ∧
    (∀ (g : Switch) (b : Bool) (s : State),
      registryGet g.index s = .ok (s.sw.get g) ∧ registrySet g.index b s = setSilent g b s ∧
        registrySetAndNotify g.index b s = setAndNotify g b s) ∧
    ∀ (s : State) (f : Nat), Running s → f ∈ (boundaryInput s).registryReads → 16 ≤ f →
      step s = .fault .badSwitchIndex

/-- O16 (stated: R79, R80, R81, R82). With a language card: LC_BANK1 is address bit 3, LC_READ_RAM is whether bits
0 and 1 agree, an even address clears write enable and prewrite, an odd read arms prewrite and enables writes
if it was armed, an odd write clears prewrite; the changed flags are logged in that order with this cycle's
number and no other switch changes. Without a language card nothing happens. -/
def Obligations.LanguageCardAccess : Prop :=
  ∀ (addr : Word) (isRead : Bool) (s : State), 0xC080 ≤ addr → addr ≤ 0xC08F →
    let even := addr.getLsbD 0 = false
    let bank1 := addr.getLsbD 3
    let readRam := decide (addr.getLsbD 0 = addr.getLsbD 1)
    let writeRam := if even then false else if isRead = true ∧ s.sw.lcPrewrite = true then true else s.sw.lcWriteRam
    let prewrite := if even then false else isRead
    let entry := fun (f : Switch) (b : Bool) => if s.sw.get f = b then [] else [(⟨s.cycles, f, b⟩ : SwitchEntry)]
    sideEffects addr isRead s =
      if s.cfg.lcPresent = false then s
      else { s with
        sw := { s.sw with lcBank1 := bank1, lcReadRam := readRam, lcWriteRam := writeRam, lcPrewrite := prewrite }
        swlog := s.swlog ++ entry .lcBank1 bank1 ++ entry .lcReadRam readRam ++ entry .lcWriteRam writeRam ++
          entry .lcPrewrite prewrite }

/-- O17 (derived: R81, R365). With a language card: an odd read of the card, any cycles at addresses outside
0xC080-0xC08F, and a second odd read leave LC_WRITE_RAM set; and an odd read right after an even access or
after a write of the card leaves LC_WRITE_RAM as that access left it. -/
def Obligations.TwoOddReadsEnableWrites : Prop :=
  (∀ (s u : State) (es : List BusEvent) (a b : Word), s.cfg.lcPresent = true →
      0xC080 ≤ a → a ≤ 0xC08F → a.getLsbD 0 = true → 0xC080 ≤ b → b ≤ 0xC08F → b.getLsbD 0 = true →
      Cycles (afterRead a s) es u → (∀ e ∈ es, e.addr < 0xC080 ∨ 0xC08F < e.addr) →
      (afterRead b u).sw.lcWriteRam = true) ∧
    (∀ (s : State) (a b : Word), s.cfg.lcPresent = true →
      0xC080 ≤ a → a ≤ 0xC08F → a.getLsbD 0 = false → 0xC080 ≤ b → b ≤ 0xC08F → b.getLsbD 0 = true →
      (afterRead b (afterRead a s)).sw.lcWriteRam = false) ∧
    ∀ (s : State) (a b : Word) (v : Byte), s.cfg.lcPresent = true →
      0xC080 ≤ a → a ≤ 0xC08F → 0xC080 ≤ b → b ≤ 0xC08F → b.getLsbD 0 = true →
      (afterRead b (memWrite a v s)).sw.lcWriteRam = (memWrite a v s).sw.lcWriteRam

/-- O18 (stated: R84, R85). A write to 0xC000 + 2k + b on an IIe sets switch F[k] to b, whatever the data byte; a
read there has no effect, nor has either access on a II+. An access of 0xC050 + 2k + b sets switch G[k] to b on
both machines. Each notifies. A read of either range gives the environment byte. -/
def Obligations.MemoryAndDisplaySwitches : Prop :=
  ∀ (s : State) (isRead b : Bool),
    (∀ k : Fin 8,
      let addr : Word := 0xC000 + 2 * BitVec.ofNat 16 k + (if b then 1 else 0)
      (memRead addr s).1 = ioByte addr s ∧ sideEffects addr isRead s =
        if s.cfg.machine = .iie ∧ isRead = false then
          setAndNotify ([.store80, .ramrd, .ramwrt, .intcxrom, .altzp, .slotc3rom, .col80, .altcharset][k]) b s
        else s) ∧
    ∀ k : Fin 4,
      let addr : Word := 0xC050 + 2 * BitVec.ofNat 16 k + (if b then 1 else 0)
      (memRead addr s).1 = ioByte addr s ∧
        sideEffects addr isRead s = setAndNotify ([.text, .mixed, .page2, .hires][k]) b s

/-- O19 (derived: R86, R89, R90). An access outside 0xC000-0xC00F, 0xC050-0xC057 and 0xC080-0xC08F changes no state
but its own storage, record and count; on a II+ 0xC000-0xC01F has none either, and no access ever changes an
IIe switch there. -/
def Obligations.NoOtherSideEffects : Prop :=
  ∀ (addr : Word) (isRead : Bool) (s : State),
    (addr < 0xC000 ∨ (0xC00F < addr ∧ addr < 0xC050) ∨ (0xC057 < addr ∧ addr < 0xC080) ∨ 0xC08F < addr →
      sideEffects addr isRead s = s) ∧
    (s.cfg.machine = .iiPlus → addr < 0xC050 → sideEffects addr isRead s = s) ∧
    (s.cfg.machine = .iiPlus → ∀ f ∈ iieOnly, (sideEffects addr isRead s).sw.get f = s.sw.get f)

/-- O20 (stated: R88). On an IIe a read of an unhooked address 0xC011 + j, j in 0..14, has the listed status in bit
7 (bit 7 of the environment byte at 0xC019) and the environment byte in bits 6 to 0; a read or a write of
0xC010-0xC01F changes no switch and stores nothing; an unhooked read of any other I/O-page address, and on a
II+ of every one, gives the environment byte. -/
def Obligations.StatusReads : Prop :=
  ∀ (addr : Word) (s : State), s.cfg.isHooked addr = false → 0xC000 ≤ addr → addr < 0xD000 →
    let v := (memRead addr s).1
    let io := ioByte addr s
    let status : List Bool := [!s.sw.lcBank1, s.sw.lcReadRam, s.sw.ramrd, s.sw.ramwrt, s.sw.intcxrom, s.sw.altzp,
      s.sw.slotc3rom, s.sw.store80, io.getLsbD 7, s.sw.text, s.sw.mixed, s.sw.page2, s.sw.hires, s.sw.altcharset,
      s.sw.col80]
    (s.cfg.machine = .iie → 0xC011 ≤ addr → addr ≤ 0xC01F →
      status[addr.toNat - 0xC011]? = some (v.getLsbD 7) ∧ (∀ b < 7, v.getLsbD b = io.getLsbD b)) ∧
    (0xC010 ≤ addr → addr ≤ 0xC01F → (memRead addr s).2.sw = s.sw ∧
      ∀ w : Byte, (memWrite addr w s).sw = s.sw ∧ (memWrite addr w s).ram = s.ram) ∧
    (s.cfg.machine = .iiPlus ∨ addr < 0xC011 ∨ 0xC01F < addr → v = io)

/-- O21 (stated: R200, R202). adcBin: the result is a + m + c modulo 256, C is set exactly when the sum exceeds
0xFF, V exactly when the signed sum leaves -128..127, N is bit 7 and Z the zero test. sbcBin: the result is a -
m - (1 - c) modulo 256, C is set exactly when that is not negative, V exactly when the signed difference leaves
-128..127. -/
def Obligations.BinaryAddAndSubtract : Prop :=
  ∀ (a m : Byte) (c : Bool),
    let r := adcBin a m c
    let d := sbcBin a m c
    let sum := a.toNat + m.toNat + c.toNat
    let signedSum := a.toInt + m.toInt + c.toNat
    let diff := (a.toNat : Int) - m.toNat - (1 - c.toNat)
    let signedDiff := a.toInt - m.toInt - (1 - c.toNat)
    r.result.toNat = sum % 0x100 ∧ (r.c = true ↔ 0xFF < sum) ∧ (r.v = true ↔ signedSum < -128 ∨ 127 < signedSum) ∧
      (r.n = true ↔ 0x80 ≤ r.result.toNat) ∧ (r.z = true ↔ r.result = 0) ∧
      (d.result.toNat : Int) = diff % 0x100 ∧ (d.c = true ↔ 0 ≤ diff) ∧
      (d.v = true ↔ signedDiff < -128 ∨ 127 < signedDiff) ∧
      (d.n = true ↔ 0x80 ≤ d.result.toNat) ∧ (d.z = true ↔ d.result = 0)

/-- O22 (stated: R201). For all operands the result, N, V, Z and C are those of the listed algorithm, written here
with division and remainder; and when both operands are valid BCD the result is valid BCD of the decimal sum
modulo 100, with C set exactly when that sum reaches 100. -/
def Obligations.DecimalAdd : Prop :=
  ∀ (a m : Byte) (c : Bool),
    let x := a.toNat
    let y := m.toNat
    let r := adcDec a m c
    let al0 := x % 16 + y % 16 + c.toNat
    let al := if 0x0A ≤ al0 then (al0 + 0x06) % 16 + 0x10 else al0
    let s := x / 16 * 16 + y / 16 * 16 + al
    let signedHigh := fun n : Nat => if n < 128 then ((n / 16 * 16 : Nat) : Int) else ((n / 16 * 16 : Nat) : Int) - 256
    let ss := signedHigh x + signedHigh y + al
    let t := if 0xA0 ≤ s then s + 0x60 else s
    let bcd := fun n : Nat => n / 16 * 10 + n % 16
    let valid := fun n : Nat => n / 16 < 10 ∧ n % 16 < 10
    r.result.toNat = t % 0x100 ∧ (r.n = true ↔ 0x80 ≤ s % 0x100) ∧ (r.v = true ↔ ss < -128 ∨ 127 < ss) ∧
      (r.c = true ↔ 0x100 ≤ t) ∧ (r.z = true ↔ (x + y + c.toNat) % 0x100 = 0) ∧
      (valid x → valid y → valid r.result.toNat ∧ bcd r.result.toNat = (bcd x + bcd y + c.toNat) % 100 ∧
        (r.c = true ↔ 100 ≤ bcd x + bcd y + c.toNat))

/-- O23 (stated: R203). For all operands the result is that of the listed algorithm, written here with division and
remainder, and N, V, Z and C are those of the binary subtraction; and when both operands are valid BCD the
result is valid BCD of the decimal difference modulo 100. -/
def Obligations.DecimalSubtract : Prop :=
  ∀ (a m : Byte) (c : Bool),
    let x := a.toNat
    let y := m.toNat
    let r := sbcDec a m c
    let f := sbcBin a m c
    let al0 : Int := (x % 16 : Nat) - (y % 16 : Nat) + c.toNat - 1
    let al := if al0 < 0 then (al0 - 0x06) % 16 - 0x10 else al0
    let s : Int := (x / 16 * 16 : Nat) - (y / 16 * 16 : Nat) + al
    let t := if s < 0 then s - 0x60 else s
    let bcd := fun n : Nat => n / 16 * 10 + n % 16
    let valid := fun n : Nat => n / 16 < 10 ∧ n % 16 < 10
    (r.result.toNat : Int) = t % 0x100 ∧ r.n = f.n ∧ r.v = f.v ∧ r.z = f.z ∧ r.c = f.c ∧
      (valid x → valid y → valid r.result.toNat ∧
        (bcd r.result.toNat : Int) = ((bcd x : Int) - bcd y - (1 - c.toNat)) % 100)

/-- O24 (derived: R25, R26, R27). Each bit of packP is the flag of its place, bit 5 is 1 and bit 4 the given B;
unpackP reads the six flags back and ignores bits 5 and 4. -/
def Obligations.StatusPacking : Prop :=
  ∀ (p : Flags) (b : Bool) (v : Byte),
    let q := packP b p
    q.getLsbD 7 = p.n ∧ q.getLsbD 6 = p.v ∧ q.getLsbD 5 = true ∧ q.getLsbD 4 = b ∧ q.getLsbD 3 = p.d ∧
      q.getLsbD 2 = p.i ∧ q.getLsbD 1 = p.z ∧ q.getLsbD 0 = p.c ∧ unpackP q = p ∧
      unpackP v = ⟨v.getLsbD 7, v.getLsbD 6, v.getLsbD 3, v.getLsbD 2, v.getLsbD 1, v.getLsbD 0⟩ ∧
      packP b (unpackP v) = (v &&& 0xCF) ||| (if b then 0x30 else 0x20)

/-- O25 (stated: R180, R181, R182). For every mode of LDA, LDX and LDY and every state: the instruction completes,
its bus cycles are exactly those of its mode, the register takes the byte they obtain, N and Z are of that
byte, and every other register and flag is as before. -/
def Obligations.LoadsReadTheirOperand : Prop :=
  ∀ s : State,
    (∀ v, ReadsThen 0xA9 (.ldaImm v) (.imm v) s fun v u => { u with a := v, p := nzOf s.p v }) ∧
    (∀ p, ReadsThen 0xA5 (.ldaZp p) (.zp p) s fun v u => { u with a := v, p := nzOf s.p v }) ∧
    (∀ p, ReadsThen 0xB5 (.ldaZpx p) (.zpx p) s fun v u => { u with a := v, p := nzOf s.p v }) ∧
    (∀ addr, ReadsThen 0xAD (.ldaAbs addr) (.abs addr) s fun v u => { u with a := v, p := nzOf s.p v }) ∧
    (∀ base, ReadsThen 0xBD (.ldaAbx base) (.abx base) s fun v u => { u with a := v, p := nzOf s.p v }) ∧
    (∀ base, ReadsThen 0xB9 (.ldaAby base) (.aby base) s fun v u => { u with a := v, p := nzOf s.p v }) ∧
    (∀ p, ReadsThen 0xA1 (.ldaIzx p) (.izx p) s fun v u => { u with a := v, p := nzOf s.p v }) ∧
    (∀ p, ReadsThen 0xB1 (.ldaIzy p) (.izy p) s fun v u => { u with a := v, p := nzOf s.p v }) ∧
    (∀ v, ReadsThen 0xA2 (.ldxImm v) (.imm v) s fun v u => { u with x := v, p := nzOf s.p v }) ∧
    (∀ p, ReadsThen 0xA6 (.ldxZp p) (.zp p) s fun v u => { u with x := v, p := nzOf s.p v }) ∧
    (∀ p, ReadsThen 0xB6 (.ldxZpy p) (.zpy p) s fun v u => { u with x := v, p := nzOf s.p v }) ∧
    (∀ addr, ReadsThen 0xAE (.ldxAbs addr) (.abs addr) s fun v u => { u with x := v, p := nzOf s.p v }) ∧
    (∀ base, ReadsThen 0xBE (.ldxAby base) (.aby base) s fun v u => { u with x := v, p := nzOf s.p v }) ∧
    (∀ v, ReadsThen 0xA0 (.ldyImm v) (.imm v) s fun v u => { u with y := v, p := nzOf s.p v }) ∧
    (∀ p, ReadsThen 0xA4 (.ldyZp p) (.zp p) s fun v u => { u with y := v, p := nzOf s.p v }) ∧
    (∀ p, ReadsThen 0xB4 (.ldyZpx p) (.zpx p) s fun v u => { u with y := v, p := nzOf s.p v }) ∧
    (∀ addr, ReadsThen 0xAC (.ldyAbs addr) (.abs addr) s fun v u => { u with y := v, p := nzOf s.p v }) ∧
    (∀ base, ReadsThen 0xBC (.ldyAbx base) (.abx base) s fun v u => { u with y := v, p := nzOf s.p v })

/-- O26 (stated: R183, R184, R185). For every mode of STA, STX and STY and every state: the instruction completes,
its bus cycles are the dummy and pointer reads of its mode and then one write cycle of the register at the
effective address, and no register or flag changes. -/
def Obligations.StoresWriteTheirRegister : Prop :=
  ∀ s : State,
    (∀ p, StoresByte 0x85 (.staZp p) (.zp p) s.a s) ∧
    (∀ p, StoresByte 0x95 (.staZpx p) (.zpx p) s.a s) ∧
    (∀ addr, StoresByte 0x8D (.staAbs addr) (.abs addr) s.a s) ∧
    (∀ base, StoresByte 0x9D (.staAbx base) (.abx base) s.a s) ∧
    (∀ base, StoresByte 0x99 (.staAby base) (.aby base) s.a s) ∧
    (∀ p, StoresByte 0x81 (.staIzx p) (.izx p) s.a s) ∧
    (∀ p, StoresByte 0x91 (.staIzy p) (.izy p) s.a s) ∧
    (∀ p, StoresByte 0x86 (.stxZp p) (.zp p) s.x s) ∧
    (∀ p, StoresByte 0x96 (.stxZpy p) (.zpy p) s.x s) ∧
    (∀ addr, StoresByte 0x8E (.stxAbs addr) (.abs addr) s.x s) ∧
    (∀ p, StoresByte 0x84 (.styZp p) (.zp p) s.y s) ∧
    (∀ p, StoresByte 0x94 (.styZpx p) (.zpx p) s.y s) ∧
    (∀ addr, StoresByte 0x8C (.styAbs addr) (.abs addr) s.y s)

/-- O27 (stated: R186, R187, R188, R189, R190, R191). Each transfer makes one dummy read at PC and copies its
source register; N and Z are of the byte copied, except that TXS writes no flag. -/
def Obligations.TransfersCopyARegister : Prop :=
  ∀ s : State,
    (ImpliedThen 0xAA .tax s fun u => { u with x := s.a, p := nzOf s.p s.a }) ∧
    (ImpliedThen 0xA8 .tay s fun u => { u with y := s.a, p := nzOf s.p s.a }) ∧
    (ImpliedThen 0x8A .txa s fun u => { u with a := s.x, p := nzOf s.p s.x }) ∧
    (ImpliedThen 0x98 .tya s fun u => { u with a := s.y, p := nzOf s.p s.y }) ∧
    (ImpliedThen 0xBA .tsx s fun u => { u with x := s.sp, p := nzOf s.p s.sp }) ∧
    (ImpliedThen 0x9A .txs s fun u => { u with sp := s.x })

/-- O28 (stated: R214, R215, R216, R217). Each makes one dummy read at PC, steps its register by one modulo 256,
and sets N and Z of the result. -/
def Obligations.IndexStepsWrap : Prop :=
  ∀ s : State,
    (ImpliedThen 0xE8 .inx s fun u => { u with x := s.x + 1, p := nzOf s.p (s.x + 1) }) ∧
    (ImpliedThen 0xC8 .iny s fun u => { u with y := s.y + 1, p := nzOf s.p (s.y + 1) }) ∧
    (ImpliedThen 0xCA .dex s fun u => { u with x := s.x - 1, p := nzOf s.p (s.x - 1) }) ∧
    (ImpliedThen 0x88 .dey s fun u => { u with y := s.y - 1, p := nzOf s.p (s.y - 1) })

/-- O29 (stated: R284, R285, R286, R287, R288, R289, R290, R291). Each completes with one dummy read at PC and
writes exactly its own flag: CLC, CLD, CLI and CLV clear C, D, I and V, SEC, SED and SEI set C, D and I; NOP,
opcode 0xEA, writes nothing. -/
def Obligations.FlagInstructionsWriteOneFlag : Prop :=
  ∀ s : State,
    (ImpliedThen 0x18 .clc s fun u => { u with p := { s.p with c := false } }) ∧
    (ImpliedThen 0xD8 .cld s fun u => { u with p := { s.p with d := false } }) ∧
    (ImpliedThen 0x58 .cli s fun u => { u with p := { s.p with i := false } }) ∧
    (ImpliedThen 0xB8 .clv s fun u => { u with p := { s.p with v := false } }) ∧
    (ImpliedThen 0x38 .sec s fun u => { u with p := { s.p with c := true } }) ∧
    (ImpliedThen 0xF8 .sed s fun u => { u with p := { s.p with d := true } }) ∧
    (ImpliedThen 0x78 .sei s fun u => { u with p := { s.p with i := true } }) ∧
    (ImpliedThen 0xEA .nop s fun u => u)

/-- O30 (stated: R204). For every mode of ADC and every state: the instruction completes with the bus cycles of its
mode, the same in both modes of arithmetic; A, N, V, Z and C are those of adcBin when D = 0 and of adcDec when
D = 1; D and I are unchanged. -/
def Obligations.AddWithCarry : Prop :=
  ∀ s : State,
    (∀ v, ReadsThen 0x69 (.adcImm v) (.imm v) s fun v u =>
      let r := if s.p.d = true then adcDec s.a v s.p.c else adcBin s.a v s.p.c
      { u with a := r.result, p := { s.p with n := r.n, v := r.v, z := r.z, c := r.c } }) ∧
    (∀ p, ReadsThen 0x65 (.adcZp p) (.zp p) s fun v u =>
      let r := if s.p.d = true then adcDec s.a v s.p.c else adcBin s.a v s.p.c
      { u with a := r.result, p := { s.p with n := r.n, v := r.v, z := r.z, c := r.c } }) ∧
    (∀ p, ReadsThen 0x75 (.adcZpx p) (.zpx p) s fun v u =>
      let r := if s.p.d = true then adcDec s.a v s.p.c else adcBin s.a v s.p.c
      { u with a := r.result, p := { s.p with n := r.n, v := r.v, z := r.z, c := r.c } }) ∧
    (∀ addr, ReadsThen 0x6D (.adcAbs addr) (.abs addr) s fun v u =>
      let r := if s.p.d = true then adcDec s.a v s.p.c else adcBin s.a v s.p.c
      { u with a := r.result, p := { s.p with n := r.n, v := r.v, z := r.z, c := r.c } }) ∧
    (∀ base, ReadsThen 0x7D (.adcAbx base) (.abx base) s fun v u =>
      let r := if s.p.d = true then adcDec s.a v s.p.c else adcBin s.a v s.p.c
      { u with a := r.result, p := { s.p with n := r.n, v := r.v, z := r.z, c := r.c } }) ∧
    (∀ base, ReadsThen 0x79 (.adcAby base) (.aby base) s fun v u =>
      let r := if s.p.d = true then adcDec s.a v s.p.c else adcBin s.a v s.p.c
      { u with a := r.result, p := { s.p with n := r.n, v := r.v, z := r.z, c := r.c } }) ∧
    (∀ p, ReadsThen 0x61 (.adcIzx p) (.izx p) s fun v u =>
      let r := if s.p.d = true then adcDec s.a v s.p.c else adcBin s.a v s.p.c
      { u with a := r.result, p := { s.p with n := r.n, v := r.v, z := r.z, c := r.c } }) ∧
    (∀ p, ReadsThen 0x71 (.adcIzy p) (.izy p) s fun v u =>
      let r := if s.p.d = true then adcDec s.a v s.p.c else adcBin s.a v s.p.c
      { u with a := r.result, p := { s.p with n := r.n, v := r.v, z := r.z, c := r.c } })

/-- O31 (stated: R207). For every mode of SBC and every state: the instruction completes with the bus cycles of its
mode; A is the result of sbcBin when D = 0 and of sbcDec when D = 1, and N, V, Z and C are those of sbcBin in
both. -/
def Obligations.SubtractWithBorrow : Prop :=
  ∀ s : State,
    (∀ v, ReadsThen 0xE9 (.sbcImm v) (.imm v) s fun v u =>
      let f := sbcBin s.a v s.p.c
      { u with
        a := if s.p.d = true then (sbcDec s.a v s.p.c).result else f.result
        p := { s.p with n := f.n, v := f.v, z := f.z, c := f.c } }) ∧
    (∀ p, ReadsThen 0xE5 (.sbcZp p) (.zp p) s fun v u =>
      let f := sbcBin s.a v s.p.c
      { u with
        a := if s.p.d = true then (sbcDec s.a v s.p.c).result else f.result
        p := { s.p with n := f.n, v := f.v, z := f.z, c := f.c } }) ∧
    (∀ p, ReadsThen 0xF5 (.sbcZpx p) (.zpx p) s fun v u =>
      let f := sbcBin s.a v s.p.c
      { u with
        a := if s.p.d = true then (sbcDec s.a v s.p.c).result else f.result
        p := { s.p with n := f.n, v := f.v, z := f.z, c := f.c } }) ∧
    (∀ addr, ReadsThen 0xED (.sbcAbs addr) (.abs addr) s fun v u =>
      let f := sbcBin s.a v s.p.c
      { u with
        a := if s.p.d = true then (sbcDec s.a v s.p.c).result else f.result
        p := { s.p with n := f.n, v := f.v, z := f.z, c := f.c } }) ∧
    (∀ base, ReadsThen 0xFD (.sbcAbx base) (.abx base) s fun v u =>
      let f := sbcBin s.a v s.p.c
      { u with
        a := if s.p.d = true then (sbcDec s.a v s.p.c).result else f.result
        p := { s.p with n := f.n, v := f.v, z := f.z, c := f.c } }) ∧
    (∀ base, ReadsThen 0xF9 (.sbcAby base) (.aby base) s fun v u =>
      let f := sbcBin s.a v s.p.c
      { u with
        a := if s.p.d = true then (sbcDec s.a v s.p.c).result else f.result
        p := { s.p with n := f.n, v := f.v, z := f.z, c := f.c } }) ∧
    (∀ p, ReadsThen 0xE1 (.sbcIzx p) (.izx p) s fun v u =>
      let f := sbcBin s.a v s.p.c
      { u with
        a := if s.p.d = true then (sbcDec s.a v s.p.c).result else f.result
        p := { s.p with n := f.n, v := f.v, z := f.z, c := f.c } }) ∧
    (∀ p, ReadsThen 0xF1 (.sbcIzy p) (.izy p) s fun v u =>
      let f := sbcBin s.a v s.p.c
      { u with
        a := if s.p.d = true then (sbcDec s.a v s.p.c).result else f.result
        p := { s.p with n := f.n, v := f.v, z := f.z, c := f.c } })

/-- O32 (stated: R206, R209, R210, R211). For every mode of the compares and every state: the instruction completes
with the bus cycles of its mode; C is whether the register is at least the operand unsigned, Z whether they are
equal, N bit 7 of the wrapped difference; V, D, I and the registers are unchanged. -/
def Obligations.ComparesSetThreeFlags : Prop :=
  ∀ s : State,
    (∀ v, ReadsThen 0xC9 (.cmpImm v) (.imm v) s fun v u =>
      { u with p := { s.p with c := decide (v.toNat ≤ s.a.toNat), z := decide (s.a = v), n := (s.a - v).msb } }) ∧
    (∀ p, ReadsThen 0xC5 (.cmpZp p) (.zp p) s fun v u =>
      { u with p := { s.p with c := decide (v.toNat ≤ s.a.toNat), z := decide (s.a = v), n := (s.a - v).msb } }) ∧
    (∀ p, ReadsThen 0xD5 (.cmpZpx p) (.zpx p) s fun v u =>
      { u with p := { s.p with c := decide (v.toNat ≤ s.a.toNat), z := decide (s.a = v), n := (s.a - v).msb } }) ∧
    (∀ addr, ReadsThen 0xCD (.cmpAbs addr) (.abs addr) s fun v u =>
      { u with p := { s.p with c := decide (v.toNat ≤ s.a.toNat), z := decide (s.a = v), n := (s.a - v).msb } }) ∧
    (∀ base, ReadsThen 0xDD (.cmpAbx base) (.abx base) s fun v u =>
      { u with p := { s.p with c := decide (v.toNat ≤ s.a.toNat), z := decide (s.a = v), n := (s.a - v).msb } }) ∧
    (∀ base, ReadsThen 0xD9 (.cmpAby base) (.aby base) s fun v u =>
      { u with p := { s.p with c := decide (v.toNat ≤ s.a.toNat), z := decide (s.a = v), n := (s.a - v).msb } }) ∧
    (∀ p, ReadsThen 0xC1 (.cmpIzx p) (.izx p) s fun v u =>
      { u with p := { s.p with c := decide (v.toNat ≤ s.a.toNat), z := decide (s.a = v), n := (s.a - v).msb } }) ∧
    (∀ p, ReadsThen 0xD1 (.cmpIzy p) (.izy p) s fun v u =>
      { u with p := { s.p with c := decide (v.toNat ≤ s.a.toNat), z := decide (s.a = v), n := (s.a - v).msb } }) ∧
    (∀ v, ReadsThen 0xE0 (.cpxImm v) (.imm v) s fun v u =>
      { u with p := { s.p with c := decide (v.toNat ≤ s.x.toNat), z := decide (s.x = v), n := (s.x - v).msb } }) ∧
    (∀ p, ReadsThen 0xE4 (.cpxZp p) (.zp p) s fun v u =>
      { u with p := { s.p with c := decide (v.toNat ≤ s.x.toNat), z := decide (s.x = v), n := (s.x - v).msb } }) ∧
    (∀ addr, ReadsThen 0xEC (.cpxAbs addr) (.abs addr) s fun v u =>
      { u with p := { s.p with c := decide (v.toNat ≤ s.x.toNat), z := decide (s.x = v), n := (s.x - v).msb } }) ∧
    (∀ v, ReadsThen 0xC0 (.cpyImm v) (.imm v) s fun v u =>
      { u with p := { s.p with c := decide (v.toNat ≤ s.y.toNat), z := decide (s.y = v), n := (s.y - v).msb } }) ∧
    (∀ p, ReadsThen 0xC4 (.cpyZp p) (.zp p) s fun v u =>
      { u with p := { s.p with c := decide (v.toNat ≤ s.y.toNat), z := decide (s.y = v), n := (s.y - v).msb } }) ∧
    (∀ addr, ReadsThen 0xCC (.cpyAbs addr) (.abs addr) s fun v u =>
      { u with p := { s.p with c := decide (v.toNat ≤ s.y.toNat), z := decide (s.y = v), n := (s.y - v).msb } })

/-- O33 (stated: R212, R213). For every mode of INC and DEC and every state: the instruction completes; its cycles
read the byte, write it back unmodified and write it stepped by one modulo 256 at the same address; N and Z are
of the result and C and V unchanged. -/
def Obligations.IncrementAndDecrementMemory : Prop :=
  ∀ s : State,
    (∀ p, Modifies 0xE6 (.incZp p) (.zp p) (fun v => v + 1) s fun v => nzOf s.p (v + 1)) ∧
    (∀ p, Modifies 0xF6 (.incZpx p) (.zpx p) (fun v => v + 1) s fun v => nzOf s.p (v + 1)) ∧
    (∀ addr, Modifies 0xEE (.incAbs addr) (.abs addr) (fun v => v + 1) s fun v => nzOf s.p (v + 1)) ∧
    (∀ base, Modifies 0xFE (.incAbx base) (.abx base) (fun v => v + 1) s fun v => nzOf s.p (v + 1)) ∧
    (∀ p, Modifies 0xC6 (.decZp p) (.zp p) (fun v => v - 1) s fun v => nzOf s.p (v - 1)) ∧
    (∀ p, Modifies 0xD6 (.decZpx p) (.zpx p) (fun v => v - 1) s fun v => nzOf s.p (v - 1)) ∧
    (∀ addr, Modifies 0xCE (.decAbs addr) (.abs addr) (fun v => v - 1) s fun v => nzOf s.p (v - 1)) ∧
    (∀ base, Modifies 0xDE (.decAbx base) (.abx base) (fun v => v - 1) s fun v => nzOf s.p (v - 1))

/-- O34 (stated: R230, R231, R232, R233). For every mode and every state: AND, ORA and EOR complete with the bus
cycles of their mode, A becomes the bitwise combination of A and the operand, N and Z are of it, and V, D, I
and C are unchanged. BIT completes with Z whether A AND the operand is zero, N bit 7 and V bit 6 of the
operand, and A, D, I and C unchanged. -/
def Obligations.LogicAndBitTest : Prop :=
  ∀ s : State,
    (∀ v, ReadsThen 0x29 (.andImm v) (.imm v) s fun v u => { u with a := s.a &&& v, p := nzOf s.p (s.a &&& v) }) ∧
    (∀ p, ReadsThen 0x25 (.andZp p) (.zp p) s fun v u => { u with a := s.a &&& v, p := nzOf s.p (s.a &&& v) }) ∧
    (∀ p, ReadsThen 0x35 (.andZpx p) (.zpx p) s fun v u => { u with a := s.a &&& v, p := nzOf s.p (s.a &&& v) }) ∧
    (∀ addr, ReadsThen 0x2D (.andAbs addr) (.abs addr) s fun v u => { u with a := s.a &&& v, p := nzOf s.p (s.a &&& v) }) ∧
    (∀ base, ReadsThen 0x3D (.andAbx base) (.abx base) s fun v u => { u with a := s.a &&& v, p := nzOf s.p (s.a &&& v) }) ∧
    (∀ base, ReadsThen 0x39 (.andAby base) (.aby base) s fun v u => { u with a := s.a &&& v, p := nzOf s.p (s.a &&& v) }) ∧
    (∀ p, ReadsThen 0x21 (.andIzx p) (.izx p) s fun v u => { u with a := s.a &&& v, p := nzOf s.p (s.a &&& v) }) ∧
    (∀ p, ReadsThen 0x31 (.andIzy p) (.izy p) s fun v u => { u with a := s.a &&& v, p := nzOf s.p (s.a &&& v) }) ∧
    (∀ v, ReadsThen 0x09 (.oraImm v) (.imm v) s fun v u => { u with a := s.a ||| v, p := nzOf s.p (s.a ||| v) }) ∧
    (∀ p, ReadsThen 0x05 (.oraZp p) (.zp p) s fun v u => { u with a := s.a ||| v, p := nzOf s.p (s.a ||| v) }) ∧
    (∀ p, ReadsThen 0x15 (.oraZpx p) (.zpx p) s fun v u => { u with a := s.a ||| v, p := nzOf s.p (s.a ||| v) }) ∧
    (∀ addr, ReadsThen 0x0D (.oraAbs addr) (.abs addr) s fun v u => { u with a := s.a ||| v, p := nzOf s.p (s.a ||| v) }) ∧
    (∀ base, ReadsThen 0x1D (.oraAbx base) (.abx base) s fun v u => { u with a := s.a ||| v, p := nzOf s.p (s.a ||| v) }) ∧
    (∀ base, ReadsThen 0x19 (.oraAby base) (.aby base) s fun v u => { u with a := s.a ||| v, p := nzOf s.p (s.a ||| v) }) ∧
    (∀ p, ReadsThen 0x01 (.oraIzx p) (.izx p) s fun v u => { u with a := s.a ||| v, p := nzOf s.p (s.a ||| v) }) ∧
    (∀ p, ReadsThen 0x11 (.oraIzy p) (.izy p) s fun v u => { u with a := s.a ||| v, p := nzOf s.p (s.a ||| v) }) ∧
    (∀ v, ReadsThen 0x49 (.eorImm v) (.imm v) s fun v u => { u with a := s.a ^^^ v, p := nzOf s.p (s.a ^^^ v) }) ∧
    (∀ p, ReadsThen 0x45 (.eorZp p) (.zp p) s fun v u => { u with a := s.a ^^^ v, p := nzOf s.p (s.a ^^^ v) }) ∧
    (∀ p, ReadsThen 0x55 (.eorZpx p) (.zpx p) s fun v u => { u with a := s.a ^^^ v, p := nzOf s.p (s.a ^^^ v) }) ∧
    (∀ addr, ReadsThen 0x4D (.eorAbs addr) (.abs addr) s fun v u => { u with a := s.a ^^^ v, p := nzOf s.p (s.a ^^^ v) }) ∧
    (∀ base, ReadsThen 0x5D (.eorAbx base) (.abx base) s fun v u => { u with a := s.a ^^^ v, p := nzOf s.p (s.a ^^^ v) }) ∧
    (∀ base, ReadsThen 0x59 (.eorAby base) (.aby base) s fun v u => { u with a := s.a ^^^ v, p := nzOf s.p (s.a ^^^ v) }) ∧
    (∀ p, ReadsThen 0x41 (.eorIzx p) (.izx p) s fun v u => { u with a := s.a ^^^ v, p := nzOf s.p (s.a ^^^ v) }) ∧
    (∀ p, ReadsThen 0x51 (.eorIzy p) (.izy p) s fun v u => { u with a := s.a ^^^ v, p := nzOf s.p (s.a ^^^ v) }) ∧
    (∀ p, ReadsThen 0x24 (.bitZp p) (.zp p) s fun v u => 
      { u with p := { s.p with z := decide (s.a &&& v = 0), n := v.getLsbD 7, v := v.getLsbD 6 } }) ∧
    (∀ addr, ReadsThen 0x2C (.bitAbs addr) (.abs addr) s fun v u => 
      { u with p := { s.p with z := decide (s.a &&& v = 0), n := v.getLsbD 7, v := v.getLsbD 6 } })

/-- O35 (stated: R234, R235, R236, R237). For every memory mode of ASL, LSR, ROL and ROR and every state: the
instruction completes; its cycles read the byte, write it back unmodified and write the result. The accumulator
forms make one dummy read at PC and no other cycle, and A becomes the result. C is the bit shifted out, N and Z
are of the result, V, D and I unchanged; the rotates bring in the C of the start. Shifts are written as
doubling and halving. -/
def Obligations.ShiftsAndRotates : Prop :=
  ∀ s : State,
    (∀ p, Modifies 0x06 (.aslZp p) (.zp p) (fun v => v * 2) s fun v => { nzOf s.p (v * 2) with c := v.getLsbD 7 }) ∧
    (∀ p, Modifies 0x16 (.aslZpx p) (.zpx p) (fun v => v * 2) s fun v => { nzOf s.p (v * 2) with c := v.getLsbD 7 }) ∧
    (∀ addr, Modifies 0x0E (.aslAbs addr) (.abs addr) (fun v => v * 2) s fun v => { nzOf s.p (v * 2) with c := v.getLsbD 7 }) ∧
    (∀ base, Modifies 0x1E (.aslAbx base) (.abx base) (fun v => v * 2) s fun v => { nzOf s.p (v * 2) with c := v.getLsbD 7 }) ∧
    (∀ p, Modifies 0x46 (.lsrZp p) (.zp p) (fun v => v / 2) s fun v => { nzOf s.p (v / 2) with c := v.getLsbD 0 }) ∧
    (∀ p, Modifies 0x56 (.lsrZpx p) (.zpx p) (fun v => v / 2) s fun v => { nzOf s.p (v / 2) with c := v.getLsbD 0 }) ∧
    (∀ addr, Modifies 0x4E (.lsrAbs addr) (.abs addr) (fun v => v / 2) s fun v => { nzOf s.p (v / 2) with c := v.getLsbD 0 }) ∧
    (∀ base, Modifies 0x5E (.lsrAbx base) (.abx base) (fun v => v / 2) s fun v => { nzOf s.p (v / 2) with c := v.getLsbD 0 }) ∧
    (∀ p, Modifies 0x26 (.rolZp p) (.zp p) (fun v => v * 2 + (if s.p.c = true then 1 else 0)) s fun v => { nzOf s.p (v * 2 + (if s.p.c = true then 1 else 0)) with c := v.getLsbD 7 }) ∧
    (∀ p, Modifies 0x36 (.rolZpx p) (.zpx p) (fun v => v * 2 + (if s.p.c = true then 1 else 0)) s fun v => { nzOf s.p (v * 2 + (if s.p.c = true then 1 else 0)) with c := v.getLsbD 7 }) ∧
    (∀ addr, Modifies 0x2E (.rolAbs addr) (.abs addr) (fun v => v * 2 + (if s.p.c = true then 1 else 0)) s fun v => { nzOf s.p (v * 2 + (if s.p.c = true then 1 else 0)) with c := v.getLsbD 7 }) ∧
    (∀ base, Modifies 0x3E (.rolAbx base) (.abx base) (fun v => v * 2 + (if s.p.c = true then 1 else 0)) s fun v => { nzOf s.p (v * 2 + (if s.p.c = true then 1 else 0)) with c := v.getLsbD 7 }) ∧
    (∀ p, Modifies 0x66 (.rorZp p) (.zp p) (fun v => v / 2 + (if s.p.c = true then 0x80 else 0)) s fun v => { nzOf s.p (v / 2 + (if s.p.c = true then 0x80 else 0)) with c := v.getLsbD 0 }) ∧
    (∀ p, Modifies 0x76 (.rorZpx p) (.zpx p) (fun v => v / 2 + (if s.p.c = true then 0x80 else 0)) s fun v => { nzOf s.p (v / 2 + (if s.p.c = true then 0x80 else 0)) with c := v.getLsbD 0 }) ∧
    (∀ addr, Modifies 0x6E (.rorAbs addr) (.abs addr) (fun v => v / 2 + (if s.p.c = true then 0x80 else 0)) s fun v => { nzOf s.p (v / 2 + (if s.p.c = true then 0x80 else 0)) with c := v.getLsbD 0 }) ∧
    (∀ base, Modifies 0x7E (.rorAbx base) (.abx base) (fun v => v / 2 + (if s.p.c = true then 0x80 else 0)) s fun v => { nzOf s.p (v / 2 + (if s.p.c = true then 0x80 else 0)) with c := v.getLsbD 0 }) ∧
    (ImpliedThen 0x0A .aslAcc s fun u => 
      { u with a := s.a * 2, p := { nzOf s.p (s.a * 2) with c := s.a.getLsbD 7 } }) ∧
    (ImpliedThen 0x4A .lsrAcc s fun u => 
      { u with a := s.a / 2, p := { nzOf s.p (s.a / 2) with c := s.a.getLsbD 0 } }) ∧
    (ImpliedThen 0x2A .rolAcc s fun u => 
      { u with a := s.a * 2 + (if s.p.c = true then 1 else 0), p := { nzOf s.p (s.a * 2 + (if s.p.c = true then 1 else 0)) with c := s.a.getLsbD 7 } }) ∧
    (ImpliedThen 0x6A .rorAcc s fun u => 
      { u with a := s.a / 2 + (if s.p.c = true then 0x80 else 0), p := { nzOf s.p (s.a / 2 + (if s.p.c = true then 0x80 else 0)) with c := s.a.getLsbD 0 } })

/-- O36 (stated: R151, R250). For every displacement and state, with PC at the next instruction: a branch whose
condition is false completes with no further cycle and nothing changed; a taken one reads the fall-through
address, reads the unfixed target too when the target lies in another page, and leaves PC at PC + sext(d),
wrapping; no flag changes. -/
def Obligations.BranchesTakeTheirCondition : Prop :=
  ∀ (s : State) (d : Byte),
    BranchesIf 0x10 (.bpl d) (!s.p.n) d s ∧
    BranchesIf 0x30 (.bmi d) s.p.n d s ∧
    BranchesIf 0x50 (.bvc d) (!s.p.v) d s ∧
    BranchesIf 0x70 (.bvs d) s.p.v d s ∧
    BranchesIf 0x90 (.bcc d) (!s.p.c) d s ∧
    BranchesIf 0xB0 (.bcs d) s.p.c d s ∧
    BranchesIf 0xD0 (.bne d) (!s.p.z) d s ∧
    BranchesIf 0xF0 (.beq d) s.p.z d s

/-- O37 (stated: R150, R259). JMP abs leaves PC at its operand and makes no cycle beyond its fetches. JMP (abs)
reads the target low byte at the pointer and the high byte at the pointer with only its low byte incremented,
and leaves PC there. No flag or register changes. -/
def Obligations.JumpsSetThePc : Prop :=
  ∀ (s : State) (w : Word),
    ((Instr.jmpAbs w).opcode = 0x4C ∧ exec (.jmpAbs w) s = .next { s with pc := w }) ∧
      (Instr.jmpInd w).opcode = 0x6C ∧ ∃ e1 e2 u, e1.IsRead w ∧ e2.IsRead (wordOf (hiByte w) (loByte w + 1)) ∧
        Cycles s [e1, e2] u ∧ exec (.jmpInd w) s = .next { u with pc := wordOf e2.value e1.value }

/-- O38 (stated: R260). With PC at the third byte: a dummy read of the stack, the high and the low byte of PC
pushed from S down inside page 1, then the target high byte read from PC, so that a push over that byte changes
the target; S is two lower and no flag changes. The high byte of the decoded operand plays no part (log 15). -/
def Obligations.JumpToSubroutine : Prop :=
  ∀ (s : State) (w : Word), (Instr.jsr w).opcode = 0x20 ∧
    (∀ k : Byte, hiByte (stackAddr k) = 0x01 ∧ loByte (stackAddr k) = k) ∧
    ∃ e w1 w2 r u, e.IsRead (stackAddr s.sp) ∧ w1.IsWrite (stackAddr s.sp) (hiByte s.pc) ∧
      w2.IsWrite (stackAddr (s.sp - 1)) (loByte s.pc) ∧ r.IsRead s.pc ∧ Cycles s [e, w1, w2, r] u ∧
      exec (.jsr w) s = .next { u with sp := s.sp - 2, pc := wordOf r.value (loByte w) }

/-- O39 (stated: R261, R262). RTS: dummy reads at PC and at the stack, the low and the high byte pulled, a dummy
read at the pulled address, and PC is that address plus one. RTI: dummy reads at PC and at the stack, then P,
the low and the high byte pulled; the six flags are those of the pulled byte and PC is the pulled address. S
wraps inside the byte. -/
def Obligations.ReturnsPullThePc : Prop :=
  ∀ s : State,
    (Instr.rts.opcode = 0x60 ∧ ∃ e1 e2 e3 e4 e5 u, e1.IsRead s.pc ∧ e2.IsRead (stackAddr s.sp) ∧
      e3.IsRead (stackAddr (s.sp + 1)) ∧ e4.IsRead (stackAddr (s.sp + 2)) ∧ e5.IsRead (wordOf e4.value e3.value) ∧
      Cycles s [e1, e2, e3, e4, e5] u ∧
      exec .rts s = .next { u with sp := s.sp + 2, pc := wordOf e4.value e3.value + 1 }) ∧
    Instr.rti.opcode = 0x40 ∧ ∃ e1 e2 e3 e4 e5 u, e1.IsRead s.pc ∧ e2.IsRead (stackAddr s.sp) ∧
      e3.IsRead (stackAddr (s.sp + 1)) ∧ e4.IsRead (stackAddr (s.sp + 2)) ∧ e5.IsRead (stackAddr (s.sp + 3)) ∧
      Cycles s [e1, e2, e3, e4, e5] u ∧
      exec .rti s = .next { u with
        sp := s.sp + 3
        pc := wordOf e5.value e4.value
        p := ⟨e3.value.getLsbD 7, e3.value.getLsbD 6, e3.value.getLsbD 3, e3.value.getLsbD 2, e3.value.getLsbD 1,
          e3.value.getLsbD 0⟩ }

/-- O40 (stated: R280, R281, R282, R283). PHA and PHP: one dummy read at PC, then one write at 0x0100 | S of A, or
of P packed with B = 1; S is one lower, wrapping. PLA and PLP: dummy reads at PC and at 0x0100 | S, then one
read at 0x0100 | (S + 1); S is one higher, wrapping; PLA puts the byte in A with N and Z of it, PLP takes the
six flags from it. Nothing else changes. -/
def Obligations.StackInstructions : Prop :=
  ∀ s : State,
    (Instr.pha.opcode = 0x48 ∧ ∃ e w u, e.IsRead s.pc ∧ w.IsWrite (stackAddr s.sp) s.a ∧ Cycles s [e, w] u ∧
      exec .pha s = .next { u with sp := s.sp - 1 }) ∧
    (Instr.php.opcode = 0x08 ∧ ∃ e w u, e.IsRead s.pc ∧ w.IsWrite (stackAddr s.sp) (packP true s.p) ∧ Cycles s [e, w] u ∧
      exec .php s = .next { u with sp := s.sp - 1 }) ∧
    (Instr.pla.opcode = 0x68 ∧ ∃ e1 e2 e3 u, e1.IsRead s.pc ∧ e2.IsRead (stackAddr s.sp) ∧
      e3.IsRead (stackAddr (s.sp + 1)) ∧ Cycles s [e1, e2, e3] u ∧
      exec .pla s = .next { u with sp := s.sp + 1, a := e3.value, p := nzOf s.p e3.value }) ∧
    Instr.plp.opcode = 0x28 ∧ ∃ e1 e2 e3 u, e1.IsRead s.pc ∧ e2.IsRead (stackAddr s.sp) ∧
      e3.IsRead (stackAddr (s.sp + 1)) ∧ Cycles s [e1, e2, e3] u ∧
      exec .plp s = .next { u with
        sp := s.sp + 1
        p := ⟨e3.value.getLsbD 7, e3.value.getLsbD 6, e3.value.getLsbD 3, e3.value.getLsbD 2, e3.value.getLsbD 1,
          e3.value.getLsbD 0⟩ }

/-- O41 (stated: R263, R313). With PC at the second byte: that byte is fetched and discarded; PC + 1 is pushed high
byte first, then P with B = 1 and bit 5 = 1; I becomes 1 and no other flag changes; S is three lower; PC is the
vector read low byte first through the resolver; seven cycles with the opcode fetch. -/
def Obligations.BreakTakesTheEntry : Prop :=
  ∀ s : State, EntersBreak 0x00 .brk s

/-- O42 (stated: R300). For each of the 105 bytes, listed by name with its opcode: the second byte is fetched and
discarded, PC + 1 and P with B = 1 are pushed, I becomes 1, and PC is the vector at 0xFFFE; no register or
memory effect of a real part's undocumented instruction happens. -/
def Obligations.UndocumentedOpcodesActAsBreak : Prop :=
  ∀ s : State,
    EntersBreak 0x02 .ill02 s ∧ EntersBreak 0x03 .ill03 s ∧ EntersBreak 0x04 .ill04 s ∧ EntersBreak 0x07 .ill07 s ∧
    EntersBreak 0x0B .ill0B s ∧ EntersBreak 0x0C .ill0C s ∧ EntersBreak 0x0F .ill0F s ∧ EntersBreak 0x12 .ill12 s ∧
    EntersBreak 0x13 .ill13 s ∧ EntersBreak 0x14 .ill14 s ∧ EntersBreak 0x17 .ill17 s ∧ EntersBreak 0x1A .ill1A s ∧
    EntersBreak 0x1B .ill1B s ∧ EntersBreak 0x1C .ill1C s ∧ EntersBreak 0x1F .ill1F s ∧ EntersBreak 0x22 .ill22 s ∧
    EntersBreak 0x23 .ill23 s ∧ EntersBreak 0x27 .ill27 s ∧ EntersBreak 0x2B .ill2B s ∧ EntersBreak 0x2F .ill2F s ∧
    EntersBreak 0x32 .ill32 s ∧ EntersBreak 0x33 .ill33 s ∧ EntersBreak 0x34 .ill34 s ∧ EntersBreak 0x37 .ill37 s ∧
    EntersBreak 0x3A .ill3A s ∧ EntersBreak 0x3B .ill3B s ∧ EntersBreak 0x3C .ill3C s ∧ EntersBreak 0x3F .ill3F s ∧
    EntersBreak 0x42 .ill42 s ∧ EntersBreak 0x43 .ill43 s ∧ EntersBreak 0x44 .ill44 s ∧ EntersBreak 0x47 .ill47 s ∧
    EntersBreak 0x4B .ill4B s ∧ EntersBreak 0x4F .ill4F s ∧ EntersBreak 0x52 .ill52 s ∧ EntersBreak 0x53 .ill53 s ∧
    EntersBreak 0x54 .ill54 s ∧ EntersBreak 0x57 .ill57 s ∧ EntersBreak 0x5A .ill5A s ∧ EntersBreak 0x5B .ill5B s ∧
    EntersBreak 0x5C .ill5C s ∧ EntersBreak 0x5F .ill5F s ∧ EntersBreak 0x62 .ill62 s ∧ EntersBreak 0x63 .ill63 s ∧
    EntersBreak 0x64 .ill64 s ∧ EntersBreak 0x67 .ill67 s ∧ EntersBreak 0x6B .ill6B s ∧ EntersBreak 0x6F .ill6F s ∧
    EntersBreak 0x72 .ill72 s ∧ EntersBreak 0x73 .ill73 s ∧ EntersBreak 0x74 .ill74 s ∧ EntersBreak 0x77 .ill77 s ∧
    EntersBreak 0x7A .ill7A s ∧ EntersBreak 0x7B .ill7B s ∧ EntersBreak 0x7C .ill7C s ∧ EntersBreak 0x7F .ill7F s ∧
    EntersBreak 0x80 .ill80 s ∧ EntersBreak 0x82 .ill82 s ∧ EntersBreak 0x83 .ill83 s ∧ EntersBreak 0x87 .ill87 s ∧
    EntersBreak 0x89 .ill89 s ∧ EntersBreak 0x8B .ill8B s ∧ EntersBreak 0x8F .ill8F s ∧ EntersBreak 0x92 .ill92 s ∧
    EntersBreak 0x93 .ill93 s ∧ EntersBreak 0x97 .ill97 s ∧ EntersBreak 0x9B .ill9B s ∧ EntersBreak 0x9C .ill9C s ∧
    EntersBreak 0x9E .ill9E s ∧ EntersBreak 0x9F .ill9F s ∧ EntersBreak 0xA3 .illA3 s ∧ EntersBreak 0xA7 .illA7 s ∧
    EntersBreak 0xAB .illAB s ∧ EntersBreak 0xAF .illAF s ∧ EntersBreak 0xB2 .illB2 s ∧ EntersBreak 0xB3 .illB3 s ∧
    EntersBreak 0xB7 .illB7 s ∧ EntersBreak 0xBB .illBB s ∧ EntersBreak 0xBF .illBF s ∧ EntersBreak 0xC2 .illC2 s ∧
    EntersBreak 0xC3 .illC3 s ∧ EntersBreak 0xC7 .illC7 s ∧ EntersBreak 0xCB .illCB s ∧ EntersBreak 0xCF .illCF s ∧
    EntersBreak 0xD2 .illD2 s ∧ EntersBreak 0xD3 .illD3 s ∧ EntersBreak 0xD4 .illD4 s ∧ EntersBreak 0xD7 .illD7 s ∧
    EntersBreak 0xDA .illDA s ∧ EntersBreak 0xDB .illDB s ∧ EntersBreak 0xDC .illDC s ∧ EntersBreak 0xDF .illDF s ∧
    EntersBreak 0xE2 .illE2 s ∧ EntersBreak 0xE3 .illE3 s ∧ EntersBreak 0xE7 .illE7 s ∧ EntersBreak 0xEB .illEB s ∧
    EntersBreak 0xEF .illEF s ∧ EntersBreak 0xF2 .illF2 s ∧ EntersBreak 0xF3 .illF3 s ∧ EntersBreak 0xF4 .illF4 s ∧
    EntersBreak 0xF7 .illF7 s ∧ EntersBreak 0xFA .illFA s ∧ EntersBreak 0xFB .illFB s ∧ EntersBreak 0xFC .illFC s ∧
    EntersBreak 0xFF .illFF s

/-- O43 (derived: R20, R21, R22, R23, R24, R28). For every instruction and state, if it completes: A is unchanged
unless it is one of the listed writers of A (the shifts in accumulator form only), and likewise X, Y and S; PC,
past the fetched bytes, is unchanged unless it is a branch, jump, call, return, BRK or undocumented opcode. -/
def Obligations.RegisterWriters : Prop :=
  ∀ (i : Instr) (s t : State), exec i s = .next t →
    (writesA i.row.op i.row.mode = false → t.a = s.a) ∧
      (i.row.op ∉ [.ldx, .tax, .tsx, .inx, .dex] → t.x = s.x) ∧
      (i.row.op ∉ [.ldy, .tay, .iny, .dey] → t.y = s.y) ∧
      (i.row.op ∉ [.txs, .pha, .php, .pla, .plp, .jsr, .rts, .rti, .brk, .ill] → t.sp = s.sp) ∧
      (i.row.op ∉ [.bcc, .bcs, .beq, .bmi, .bne, .bpl, .bvc, .bvs, .jmp, .jsr, .rts, .rti, .brk, .ill] → t.pc = s.pc)

/-- O44 (derived: R26, R28, R205). For every instruction and state, if it completes: N and Z are unchanged unless
the table lists the instruction for them, and likewise V, D, I and C. -/
def Obligations.FlagWriters : Prop :=
  ∀ (i : Instr) (s t : State), exec i s = .next t →
    (writesNZ i.row.op = false → t.p.n = s.p.n ∧ t.p.z = s.p.z) ∧
      (i.row.op ∉ [.adc, .sbc, .bit, .clv, .plp, .rti] → t.p.v = s.p.v) ∧
      (i.row.op ∉ [.cld, .sed, .plp, .rti] → t.p.d = s.p.d) ∧
      (i.row.op ∉ [.cli, .sei, .plp, .rti, .brk, .ill] → t.p.i = s.p.i) ∧
      (i.row.op ∉ [.adc, .sbc, .cmp, .cpx, .cpy, .asl, .lsr, .rol, .ror, .clc, .sec, .plp, .rti] → t.p.c = s.p.c)

/-- O45 (derived: R31, R67, R140, R183, R311). For every instruction and state, if it completes: all of RAM is
unchanged unless it is a store, an RMW instruction in a memory mode, PHA, PHP, JSR, BRK or undocumented; and
ROM, the configuration, the marks, the power-on flag and the boundary inputs are unchanged for every one. -/
def Obligations.OtherInstructionsKeepMemory : Prop :=
  ∀ (i : Instr) (s t : State), exec i s = .next t →
    (writesRam i.row.op i.row.mode = false → t.ram = s.ram) ∧
      t.rom = s.rom ∧ t.cfg = s.cfg ∧ t.fault = s.fault ∧ t.refusal = s.refusal ∧ t.powerOn = s.powerOn ∧
      t.inputs = s.inputs

/-- O46 (derived: R140, R183, R184, R185, R212, R213, R234, R235, R236, R237). For every store and every memory
form of the RMW class: if it completes, every RAM byte other than the one at the offset its effective address
resolves to reads as before, and a store leaves every register and flag alone while an RMW leaves A, X, Y, S
and PC. The address is the one the meaning computes. -/
def Obligations.StoresAndModifiesFrame : Prop :=
  ∀ s t : State,
    let kept : Instr → WriteMode → Prop := fun i m => exec i s = .next t →
      RamKeptBut [storeTarget (writeAddress m s).1 (writeAddress m s).2] s t ∧ RegistersKept s t
    let kept' : Instr → RmwMode → Prop := fun i m => exec i s = .next t →
      ∃ ea u, rmwAddress m s = some (ea, u) ∧ RamKeptBut [storeTarget ea u] s t ∧ RegistersKept s { t with p := s.p }
    (∀ p, kept (.staZp p) (.zp p)) ∧
    (∀ p, kept (.staZpx p) (.zpx p)) ∧
    (∀ addr, kept (.staAbs addr) (.abs addr)) ∧
    (∀ base, kept (.staAbx base) (.abx base)) ∧
    (∀ base, kept (.staAby base) (.aby base)) ∧
    (∀ p, kept (.staIzx p) (.izx p)) ∧
    (∀ p, kept (.staIzy p) (.izy p)) ∧
    (∀ p, kept (.stxZp p) (.zp p)) ∧
    (∀ p, kept (.stxZpy p) (.zpy p)) ∧
    (∀ addr, kept (.stxAbs addr) (.abs addr)) ∧
    (∀ p, kept (.styZp p) (.zp p)) ∧
    (∀ p, kept (.styZpx p) (.zpx p)) ∧
    (∀ addr, kept (.styAbs addr) (.abs addr)) ∧
    (∀ p, kept' (.incZp p) (.zp p)) ∧
    (∀ p, kept' (.incZpx p) (.zpx p)) ∧
    (∀ addr, kept' (.incAbs addr) (.abs addr)) ∧
    (∀ base, kept' (.incAbx base) (.abx base)) ∧
    (∀ p, kept' (.decZp p) (.zp p)) ∧
    (∀ p, kept' (.decZpx p) (.zpx p)) ∧
    (∀ addr, kept' (.decAbs addr) (.abs addr)) ∧
    (∀ base, kept' (.decAbx base) (.abx base)) ∧
    (∀ p, kept' (.aslZp p) (.zp p)) ∧
    (∀ p, kept' (.aslZpx p) (.zpx p)) ∧
    (∀ addr, kept' (.aslAbs addr) (.abs addr)) ∧
    (∀ base, kept' (.aslAbx base) (.abx base)) ∧
    (∀ p, kept' (.lsrZp p) (.zp p)) ∧
    (∀ p, kept' (.lsrZpx p) (.zpx p)) ∧
    (∀ addr, kept' (.lsrAbs addr) (.abs addr)) ∧
    (∀ base, kept' (.lsrAbx base) (.abx base)) ∧
    (∀ p, kept' (.rolZp p) (.zp p)) ∧
    (∀ p, kept' (.rolZpx p) (.zpx p)) ∧
    (∀ addr, kept' (.rolAbs addr) (.abs addr)) ∧
    (∀ base, kept' (.rolAbx base) (.abx base)) ∧
    (∀ p, kept' (.rorZp p) (.zp p)) ∧
    (∀ p, kept' (.rorZpx p) (.zpx p)) ∧
    (∀ addr, kept' (.rorAbs addr) (.abs addr)) ∧
    (∀ base, kept' (.rorAbx base) (.abx base))

/-- O47 (derived: R23, R260, R263, R280, R281, R300, R313). PHA, PHP, JSR, BRK and every undocumented opcode: if it
completes, every RAM byte other than the ones its one, two or three stack addresses resolve to reads as before,
and A, X and Y are unchanged. -/
def Obligations.PushesFrame : Prop :=
  ∀ s t : State,
    let slot := fun (n : Byte) (u : State) => storeTarget (stackAddr (s.sp - n)) u
    let kept := fun (targets : List (Option Nat)) => RamKeptBut targets s t ∧ t.a = s.a ∧ t.x = s.x ∧ t.y = s.y
    (exec .pha s = .next t → kept [slot 0 (afterRead s.pc s)]) ∧
      (exec .php s = .next t → kept [slot 0 (afterRead s.pc s)]) ∧
      (∀ w : Word, exec (.jsr w) s = .next t → kept [slot 0 s, slot 1 s]) ∧
      ∀ i : Instr, i.row.op = .brk ∨ i.row.op = .ill → exec i s = .next t →
        kept [slot 0 (afterRead s.pc s), slot 1 (afterRead s.pc s), slot 2 (afterRead s.pc s)]

/-- O48 (derived: R24, R120, R331). When a boundary executes an instruction and the bytes at PC, read where RAM or
ROM answers unhooked, decode to a well-formed instruction, the step is exec of that instruction in the state
its fetches leave: one read cycle per fetched byte at PC, PC + 1, and so on, and PC past them. JSR has only two
bytes fetched before its meaning begins (log 15). -/
def Obligations.StepRunsTheDecodedInstruction : Prop :=
  ∀ (s : State) (bs : List Byte) (i : Instr), Executes s → i.wf = true → decode bs = .ok (i, []) →
    let s1 := eventsState s
    (∀ (k : Nat) (b : Byte), bs[k]? = some b →
      PlainRead s1 (s1.pc + BitVec.ofNat 16 k) ∧ sneakyRead (s1.pc + BitVec.ofNat 16 k) s1 = b) →
    ∃ es u, es.length = fetchedBytes i ∧
      (∀ (k : Nat) (e : BusEvent), es[k]? = some e →
        e.IsRead (s1.pc + BitVec.ofNat 16 k) ∧ some e.value = bs[k]?) ∧
      Cycles s1 es u ∧ step s = exec i { u with pc := s1.pc + BitVec.ofNat 16 (fetchedBytes i) }

/-- O49 (derived: R12, R24, R96, R120, R331). Whatever answers the addresses, hooked, I/O or plain: a boundary that
executes an instruction reads bytes at PC, PC + 1 and so on through the bus, one cycle each, and runs exec of
the instruction those bytes decode to, with PC past them; for JSR the third byte is not read yet and the byte
decoded in its place is what a sneaky read shows (log 15, 16). -/
def Obligations.StepFetchesWhateverAnswers : Prop :=
  ∀ s : State, Executes s →
    let s1 := eventsState s
    ∃ es u i third, decode (es.map BusEvent.value ++ third) = .ok (i, []) ∧ es.length = fetchedBytes i ∧
      (∀ (k : Nat) (e : BusEvent), es[k]? = some e → e.IsRead (s1.pc + BitVec.ofNat 16 k)) ∧
      Cycles s1 es u ∧ third = (if i.row.op = .jsr then [sneakyRead (s1.pc + 2) u] else []) ∧
      step s = exec i { u with pc := s1.pc + BitVec.ofNat 16 (fetchedBytes i) }

/-- O50 (derived: R141, R146, R149, R151, R154, R250, R366). For every instruction and state, if it completes, the
cycles its fetches and its meaning make are the count of the table and nothing more, but for two kinds of row.
A page-cross row is a read-class abs,X, abs,Y or (zp),Y form and takes exactly one more when the high byte of
base + index differs from that of the base, the base of (zp),Y being the pointer its two zero-page reads
obtain. A branch takes no more when its flag condition is false, and PC stays; one more when it is true and the
target is in the page of the next instruction, a displacement of 0 included, and two more when it is not, and
PC is the target. The bus log grows by exactly the cycles counted. -/
def Obligations.CycleCounts : Prop :=
  ∀ (i : Instr) (s t : State), exec i s = .next t →
    let extra := t.cycles + fetchedBytes i - (s.cycles + i.row.cycles)
    s.cycles + i.row.cycles ≤ t.cycles + fetchedBytes i ∧
      t.buslog.length + s.cycles = s.buslog.length + t.cycles ∧
      (i.row.pageCross = false → i.row.mode ≠ .rel → extra = 0) ∧
      (i.row.pageCross = true → extra ≤ 1 ∧
        ((i.row.mode = .abx ∧ ∃ op lo hi, encode i = [op, lo, hi] ∧
            (extra = 1 ↔ hiByte (wordOf hi lo + zext16 s.x) ≠ hi)) ∨
          (i.row.mode = .aby ∧ ∃ op lo hi, encode i = [op, lo, hi] ∧
            (extra = 1 ↔ hiByte (wordOf hi lo + zext16 s.y) ≠ hi)) ∨
          (i.row.mode = .izy ∧ ∃ op p, encode i = [op, p] ∧
            let lo := memRead (zext16 p) s
            let hi := memRead (zext16 (p + 1)) lo.2
            (extra = 1 ↔ hiByte (wordOf hi.1 lo.1 + zext16 s.y) ≠ hi.1)))) ∧
      (i.row.mode = .rel → ∃ op d cond, encode i = [op, d] ∧ branchCondition i.row.op s.p = some cond ∧
        if cond = false then extra = 0 ∧ t.pc = s.pc
        else t.pc = s.pc + sext16 d ∧ extra = if hiByte t.pc = hiByte s.pc then 1 else 2)

/-- O51 (stated: R312, R313). At a boundary that can run, with no model fault, no reset requested, the line
asserted and I = 0: the step makes two dummy reads at PC and then the entry through 0xFFFE with the address of
the instruction not yet executed pushed and B = 0; I becomes 1, D and the other flags are unchanged, S is three
lower; seven cycles, and no instruction runs. -/
def Obligations.InterruptEntry : Prop :=
  ∀ s : State, Running s → (eventsState s).fault = none → (boundaryInput s).reset = .none →
    (boundaryInput s).irqLine = true → (eventsState s).p.i = false →
    let s1 := eventsState s
    ∃ d1 d2 es target u, d1.IsRead s1.pc ∧ d2.IsRead s1.pc ∧
      EntryCycles 0xFFFE s1.pc (packP false s1.p) s1.sp es target ∧ Cycles s1 (d1 :: d2 :: es) u ∧
      step s = .next { u with pc := target, sp := s1.sp - 3, p := { s1.p with i := true } }

/-- O52 (stated: R351, R352, R355). At a boundary that can run, with no model fault and a warm reset requested,
whatever the IRQ line and I: the twelve general switches are reset before the first cycle (TEXT set, the rest
cleared, silently) and the four language-card flags kept; three reads at PC, three reads down the stack with S
decremented and nothing written, I set, and PC loaded from 0xFFFC; A, X, Y, the other flags, RAM and ROM
unchanged. -/
def Obligations.WarmReset : Prop :=
  ∀ s : State, Running s → (eventsState s).fault = none → (boundaryInput s).reset = .warm →
    ∃ t, step s = .next t ∧ ResetRun (eventsState s) t ∧
      t.a = (eventsState s).a ∧ t.x = (eventsState s).x ∧ t.y = (eventsState s).y ∧
      t.p = { (eventsState s).p with i := true } ∧ t.sp = (eventsState s).sp - 3 ∧
      t.ram = (eventsState s).ram ∧ t.rom = (eventsState s).rom ∧
      t.buslog.length = (eventsState s).buslog.length + 8 ∧ t.cycles = (eventsState s).cycles + 8

/-- O53 (derived: R356, R358, R359, R38). The launch state has the drawn registers, flags and RAM bytes (of two
draws for one byte the later), the ROM image, the language-card flags of the configuration and the other
switches false, empty logs, no cycles and no fault; its first step is the reset sequence with no events and no
END_PC test; and a cold reset at a running boundary is that power-on with fresh draws followed by the reset
sequence (that the environment's queues stay is the model's inference, log 11). -/
def Obligations.PowerOnAndColdReset : Prop :=
  (∀ (cfg : Config) (image : List Byte) (d : PowerOnDraws),
      let s := State.launch cfg image d
      s.a = d.a ∧ s.x = d.x ∧ s.y = d.y ∧ s.sp = d.sp ∧ s.pc = d.pc ∧ s.p = d.p ∧ s.cfg = cfg ∧
        (∀ k, k < image.length → some (s.rom.read k) = image[k]?) ∧
        (s.sw.lcBank1 = cfg.lcPowerOn.bank1 ∧ s.sw.lcReadRam = cfg.lcPowerOn.readRam ∧
          s.sw.lcWriteRam = cfg.lcPowerOn.writeRam ∧ s.sw.lcPrewrite = cfg.lcPowerOn.prewrite) ∧
        (∀ f : Switch, f.isLanguageCard = false → s.sw.get f = false) ∧
        (∀ (k : Nat) (v : Byte) (pre post : List Host.Cell), k < cfg.ramSize → d.ram = pre ++ (k, v) :: post →
          (∀ c ∈ post, c.1 ≠ k) → s.ram.read k = v) ∧
        s.swlog = [] ∧ s.buslog = [] ∧ s.cycles = 0 ∧ s.fault = none ∧ s.powerOn = true ∧
        (s.refusal = none ↔ cfg.romImageOk image.length = true ∧ cfg.ramSizeOk = true)) ∧
    (∀ s : State, s.refusal = none → s.fault = none → s.powerOn = true →
      ∃ t, step s = .next t ∧ ResetRun { s with powerOn := false } t) ∧
    ∀ (s : State) (d : PowerOnDraws), Running s → (eventsState s).fault = none → (boundaryInput s).reset = .cold d →
      ∃ t, step s = .next t ∧
        ResetRun { State.atPowerOn s.cfg (eventsState s).rom d with
          powerOn := false, inputs := s.inputs.tail, ioDraws := s.ioDraws, suppressDraws := s.suppressDraws } t

/-- O54 (derived: R37, R322, R323, R334, R357). A state with the refusal mark answers that refusal and a state with
the fault mark answers that fault, whatever the environment does, a reset request included; a launch with a ROM
image or RAM of the wrong size is so refused, the ROM image named first where both are wrong; and at END_PC,
with no mark and the power-on reset done, the run is over. The rules say that there is no further step; which
answer the step then gives is the model's own: that a marked state answers the fault it carries is the model's
choice (log 12), that the ROM size is named before the RAM size is the model's inference (log 14), and runEnded
at END_PC is the model's choice (log 13). -/
def Obligations.MarkedStatesHaveNoStep : Prop :=
  (∀ (s : State) (r : Refusal), s.refusal = some r → step s = .refused r) ∧
    (∀ (s : State) (f : Fault), s.refusal = none → s.fault = some f → step s = .fault f) ∧
    (∀ (cfg : Config) (image : List Byte) (d : PowerOnDraws),
      (cfg.romImageOk image.length = false → step (State.launch cfg image d) = .refused .badRomSize) ∧
        (cfg.romImageOk image.length = true → cfg.ramSizeOk = false →
          step (State.launch cfg image d) = .refused .badRamSize)) ∧
    ∀ s : State, s.refusal = none → s.fault = none → s.powerOn = false → s.pc = s.cfg.endPc →
      step s = .refused .runEnded

/-- O55 (derived: R319, R320, R322). At a running boundary with no registry fault: fewer moving sweeps than
PRESTEP_LIMIT and then a stable one (or none listed) leave PC at the last of them and change nothing else; as
many moving sweeps as the limit fault, whatever reset or IRQ is pending; a STEP handler that leaves another PC
faults, and one that leaves the same PC is no change. Three things here are the model's choice: the sweeps are
a list of the PC each leaves, and when it is used up the next sweep leaves PC as it is (log 19); the step of
the boundary answers the fault itself, and nothing else of that boundary happens (log 12); and what the
environment does at a boundary is held as inputs of the state, one taken per boundary (log 1). -/
def Obligations.PrestepAndStepEvents : Prop :=
  ∀ (s : State) (ws rest : List Word), Running s → (boundaryInput s).registryReads = [] → Moving s.pc ws →
    (ws.length < s.cfg.prestepLimit →
      (boundaryInput s).sweeps = ws ∨ (boundaryInput s).sweeps = ws ++ lastPc s.pc ws :: rest →
      ((boundaryInput s).stepPcChange = none ∨ (boundaryInput s).stepPcChange = some (lastPc s.pc ws) →
        eventsState s = { s with pc := lastPc s.pc ws, inputs := s.inputs.tail }) ∧
      (∀ v : Word, (boundaryInput s).stepPcChange = some v → v ≠ lastPc s.pc ws → step s = .fault .stepPcMutated)) ∧
    (ws.length = s.cfg.prestepLimit → ws ≠ [] → (boundaryInput s).sweeps = ws ++ rest →
      step s = .fault .prestepLoop)

/-- O56 (derived: R38, R351, R352, R358). State.reset meets State.Inv; I is set, TEXT is the only switch set, the
switch log is empty, eight cycles have been made, eight records are logged, there is no mark, and one power-on
step from the launch with the drawn values named in logs 5 to 8 leads to it (those values are the model's
choice). -/
def Obligations.ResetStateIsInvariant : Prop :=
  State.reset.Inv ∧ State.reset.p.i = true ∧ (∀ f : Switch, State.reset.sw.get f = (f == .text)) ∧
    State.reset.swlog = [] ∧ State.reset.cycles = 8 ∧ State.reset.buslog.length = 8 ∧
    State.reset.fault = none ∧ State.reset.refusal = none ∧
    step (State.launch defaultConfig (List.replicate 16384 0x00)
      ⟨0x00, 0x00, 0x00, 0x00, 0x0000, ⟨false, false, false, false, false, false⟩, []⟩) = .next State.reset

/-- O57 (derived: R31, R32, R33, R34, R75, R86, R331). From every state, reached or not, that meets State.Inv
(legal RAM size, RAM and ROM in canonical form inside their sizes, one bus record per cycle numbered in order,
switch-log entries of cycles already made, and no IIe switch set on a II+), whatever the environment does, a
step that answers a next state leaves a state that meets it. -/
def Obligations.EveryStepKeepsTheInvariant : Prop :=
  ∀ s t : State, s.Inv → step s = .next t → t.Inv

/-- O58 (derived: R17, R32, R33, R70, R75, R92). For every step that is neither a reset nor the power-on step: the
bus log grows by the cycles made and nothing before is altered; a RAM byte changes only where an unsuppressed
POKE record of this step resolves to it; if a switch changes, the switch log has an entry of this step that
names it and its last value; ROM, the configuration and the refusal mark never change, not even in a reset. -/
def Obligations.EveryChangeIsOnTheBus : Prop :=
  ∀ s t : State, step s = .next t →
    t.rom = s.rom ∧ t.cfg = s.cfg ∧ t.refusal = s.refusal ∧
    (s.powerOn = false → (boundaryInput s).reset = .none →
      ∃ es ls, t.buslog = s.buslog ++ es ∧ t.cycles = s.cycles + es.length ∧ t.swlog = s.swlog ++ ls ∧
        (∀ l ∈ ls, s.cycles ≤ l.cycle ∧ l.cycle < t.cycles) ∧
        (∀ k : Nat, t.ram.read k ≠ s.ram.read k →
          ∃ e ∈ es, e.type = .poke ∧ e.suppressed = false ∧ ramTarget s.cfg e.resolution = some k) ∧
        ∀ f : Switch, t.sw.get f ≠ s.sw.get f → ∃ l ∈ ls, l.flag = f ∧ l.value = t.sw.get f)

/-- O59 (derived: R262, R313, R317). If BRK or an undocumented opcode completes with the stack page in RAM that
pushes store to and pulls read back, then RTI, run in that state at any PC, completes with every flag as before
the entry, S as before, and PC at opcode address + 2. RAM must be in canonical form. -/
def Obligations.ReturnUndoesBreak : Prop :=
  ∀ (i : Instr) (s t : State) (q : Word), i.row.op = .brk ∨ i.row.op = .ill → StackBacked s → s.ram.wf = true →
    exec i s = .next t →
    ∃ u, exec .rti { t with pc := q } = .next u ∧ u.p = s.p ∧ u.sp = s.sp ∧ u.pc = s.pc + 1

/-- O60 (derived: R351, R359, R58, R66, R67, R80, R87). From every state of cleanLaunch, wherever PC was drawn and
whatever addresses are hooked, the first step counts eight cycles and logs eight records, the last two being
reads of 0xFFFC and 0xFFFD; romVector(v) says exactly that those two give the low and the high byte of v, and
then PC is v. With the two vector addresses unhooked, romVector(v) speaks of the bytes of ROM at ROM_SIZE - 4
and ROM_SIZE - 3, or, with LC RAM selected for reading when the vector is read, of the RAM bytes at 0xFFFC and
0xFFFD: LC RAM is selected with a language card and LC_READ_RAM set, but a PC in 0xC080-0xC08F makes the three
reads of the reset select it by the two low bits of that address. -/
def Obligations.LaunchReachesTheRomVector : Prop :=
  (∀ s : State, CleanLaunch s →
      ∃ t r1 r2, step s = .next t ∧ t.cycles = 8 ∧ t.buslog.length = 8 ∧
        t.buslog[6]? = some r1 ∧ t.buslog[7]? = some r2 ∧ r1.IsRead 0xFFFC ∧ r2.IsRead 0xFFFD ∧
        ∀ v : Word, (RomVector v s ↔ r1.value = loByte v ∧ r2.value = hiByte v) ∧ (RomVector v s → t.pc = v)) ∧
    ∀ (s : State) (v : Word), s.cfg.isHooked 0xFFFC = false → s.cfg.isHooked 0xFFFD = false →
      (RomVector v s ↔
        if vectorInRam s then s.ram.read 0xFFFC = loByte v ∧ s.ram.read 0xFFFD = hiByte v
        else s.rom.read (s.cfg.romSize - 4) = loByte v ∧ s.rom.read (s.cfg.romSize - 3) = hiByte v)
end

