-- ==== Sys2Proof/Laws/Memory.lean ====
section
/-! SUPPORT. Byte stores: read after write, the canonical form and the size kept by every operation, and equal reads give
equal stores. -/

namespace Sys2Proof.Machine

namespace Memory

theorem read_consCell (k j : Nat) (v : Byte) (m : Memory) (h : v = unlisted → read k m = unlisted) :
    read j (consCell k v m) = if j = k then v else read j m := by
  unfold consCell
  split
  · next hv => split <;> simp_all
  · simp [read]

theorem wfFrom_mono {lo lo' : Nat} (h : lo' ≤ lo) : ∀ {m : Memory}, wfFrom lo m = true → wfFrom lo' m = true
  | [], _ => rfl
  | (j, b) :: m, hm => by
    simp only [wfFrom, Bool.and_eq_true, decide_eq_true_eq] at hm ⊢
    exact ⟨⟨by omega, hm.1.2⟩, hm.2⟩

theorem read_below {lo k : Nat} (hk : k < lo) : ∀ {m : Memory}, wfFrom lo m = true → read k m = unlisted
  | [], _ => rfl
  | (j, b) :: m, hm => by
    simp only [wfFrom, Bool.and_eq_true, decide_eq_true_eq] at hm
    have : k ≠ j := by omega
    simp only [read, this, if_false]
    exact read_below (by omega) hm.2

theorem wfFrom_consCell {lo k : Nat} {v : Byte} {m : Memory} (hk : lo ≤ k) (h : wfFrom (k + 1) m = true) :
    wfFrom lo (consCell k v m) = true := by
  unfold consCell
  split
  · exact wfFrom_mono (by omega) h
  · simp_all [wfFrom]

theorem wfFrom_write {lo k : Nat} {v : Byte} (hk : lo ≤ k) :
    ∀ {m : Memory}, wfFrom lo m = true → wfFrom lo (write k v m) = true
  | [], _ => wfFrom_consCell hk rfl
  | (j, b) :: m, hm => by
    have hm' := hm
    simp only [wfFrom, Bool.and_eq_true, decide_eq_true_eq] at hm
    simp only [write]
    split
    · exact wfFrom_consCell hk (by simp_all [wfFrom])
    split
    · subst k; exact wfFrom_consCell hk hm.2
    · simp only [wfFrom, Bool.and_eq_true, decide_eq_true_eq]
      exact ⟨hm.1, wfFrom_write (by omega) hm.2⟩

/-- A write keeps the canonical form. -/
theorem wf_write {m : Memory} (k : Nat) (v : Byte) (h : m.wf = true) : (m.write k v).wf = true :=
  wfFrom_write (Nat.zero_le k) h

theorem read_write_from {lo k : Nat} {v : Byte} (j : Nat) :
    ∀ {m : Memory}, wfFrom lo m = true → read j (write k v m) = if j = k then v else read j m
  | [], _ => read_consCell k j v [] (fun _ => rfl)
  | (i, b) :: m, hm => by
    have hm' := hm
    simp only [wfFrom, Bool.and_eq_true, decide_eq_true_eq] at hm
    simp only [write]
    split
    · next hlt =>
      exact read_consCell k j v _ (fun _ => read_below hlt (by simp_all [wfFrom]))
    split
    · next heq =>
      subst heq
      rw [read_consCell k j v m (fun _ => read_below (Nat.lt_succ_self k) hm.2)]
      by_cases hj : j = k <;> simp [read, hj]
    · next hne =>
      simp only [read, read_write_from j hm.2]
      by_cases hji : j = i
      · subst hji
        have : ¬ j = k := by omega
        simp [this]
      · simp [hji]

/-- What a read gives after a write. -/
theorem read_write {m : Memory} (k j : Nat) (v : Byte) (h : m.wf = true) :
    read j (m.write k v) = if j = k then v else read j m :=
  read_write_from j h

theorem below_cons {size j : Nat} {b : Byte} {m : Memory} :
    below size ((j, b) :: m) = true ↔ j < size ∧ below size m = true := by
  simp [below]

theorem below_consCell {size k : Nat} {v : Byte} {m : Memory} (hk : k < size) (h : m.below size = true) :
    (consCell k v m).below size = true := by
  unfold consCell
  split
  · exact h
  · exact below_cons.2 ⟨hk, h⟩

/-- A write inside a size keeps the store inside it. -/
theorem below_write {size k : Nat} {v : Byte} (hk : k < size) :
    ∀ {m : Memory}, m.below size = true → (m.write k v).below size = true
  | [], h => below_consCell hk h
  | (j, b) :: m, h => by
    have hm := below_cons.1 h
    simp only [write]
    split
    · exact below_consCell hk h
    split
    · exact below_consCell hk hm.2
    · exact below_cons.2 ⟨hm.1, below_write hk hm.2⟩

theorem ofCells_go {size : Nat} (cells : List Host.Cell) :
    ∀ m : Memory, m.wf = true → m.below size = true →
      (cells.foldl (fun m cell => if cell.1 < size then write cell.1 cell.2 m else m) m).wf = true ∧
      (cells.foldl (fun m cell => if cell.1 < size then write cell.1 cell.2 m else m) m).below size = true := by
  induction cells with
  | nil => exact fun m h1 h2 => ⟨h1, h2⟩
  | cons c cs ih =>
    intro m h1 h2
    simp only [List.foldl_cons]
    split
    · next hc => exact ih _ (wf_write _ _ h1) (below_write hc h2)
    · exact ih m h1 h2

/-- Building a store from cells gives the canonical form. -/
theorem wf_ofCells (size : Nat) (cells : List Host.Cell) : (ofCells size cells).wf = true :=
  (ofCells_go (size := size) cells [] rfl rfl).1

/-- Building a store from cells keeps it inside its size. -/
theorem below_ofCells (size : Nat) (cells : List Host.Cell) : (ofCells size cells).below size = true :=
  (ofCells_go cells [] rfl rfl).2

theorem wfFrom_ofImage : ∀ (image : List Byte) (k : Nat), wfFrom k (ofImage k image) = true
  | [], _ => rfl
  | _ :: bs, k => wfFrom_consCell (Nat.le_refl k) (wfFrom_ofImage bs (k + 1))

/-- Laying out an image gives the canonical form. -/
theorem wf_ofImage (image : List Byte) : (ofImage 0 image).wf = true := wfFrom_ofImage image 0

theorem below_ofImage_from (size : Nat) : ∀ (image : List Byte) (k : Nat), k + image.length ≤ size →
    (ofImage k image).below size = true
  | [], _, _ => rfl
  | _ :: bs, k, h => by
    simp only [List.length_cons] at h
    exact below_consCell (by omega) (below_ofImage_from size bs (k + 1) (by omega))

/-- Laying out an image keeps it inside its length. -/
theorem below_ofImage (image : List Byte) : (ofImage 0 image).below image.length = true :=
  below_ofImage_from _ image 0 (by omega)

/-- The store of an image reads as the image. -/
theorem read_ofImage : ∀ (image : List Byte) (k j : Nat),
    read j (ofImage k image) = if k ≤ j then image.getD (j - k) unlisted else unlisted
  | [], k, j => by simp [ofImage, read]
  | b :: bs, k, j => by
    rw [ofImage, read_consCell _ _ _ _ (fun _ => read_below (Nat.lt_succ_self k) (wfFrom_ofImage bs (k + 1))),
      read_ofImage bs (k + 1) j]
    by_cases h : j = k
    · simp [h]
    by_cases h2 : k ≤ j
    · have h3 : k + 1 ≤ j := by omega
      have h4 : j - k = (j - (k + 1)) + 1 := by omega
      rw [if_neg h, if_pos h3, if_pos h2, h4, List.getD_cons_succ]
    · have h3 : ¬ k + 1 ≤ j := by omega
      rw [if_neg h, if_neg h3, if_neg h2]

/-- An all-zero image is the empty store. -/
theorem ofImage_zeros (n k : Nat) : ofImage k (List.replicate n unlisted) = [] := by
  induction n generalizing k with
  | zero => rfl
  | succ n ih => simp [List.replicate_succ, ofImage, consCell, ih]

theorem eq_of_read_from : ∀ {lo : Nat} {m1 m2 : Memory}, wfFrom lo m1 = true → wfFrom lo m2 = true →
    (∀ k, read k m1 = read k m2) → m1 = m2
  | _, [], [], _, _, _ => rfl
  | _, [], (j, _) :: _, _, h2, h => by
    simp only [wfFrom, Bool.and_eq_true, decide_eq_true_eq] at h2
    have := h j
    simp only [read, if_true] at this
    exact absurd this.symm h2.1.2
  | _, (j, _) :: _, [], h1, _, h => by
    simp only [wfFrom, Bool.and_eq_true, decide_eq_true_eq] at h1
    have := h j
    simp only [read, if_true] at this
    exact absurd this h1.1.2
  | _, (j, b) :: m, (j', b') :: m', h1, h2, h => by
    simp only [wfFrom, Bool.and_eq_true, decide_eq_true_eq] at h1 h2
    have hj : j = j' := by
      rcases Nat.lt_trichotomy j j' with hlt | heq | hgt
      · have h3 := h j
        have : j ≠ j' := by omega
        simp only [read, if_true, this, if_false] at h3
        rw [read_below (lo := j' + 1) (by omega) h2.2] at h3
        exact absurd h3 h1.1.2
      · exact heq
      · have h3 := h j'
        have : j' ≠ j := by omega
        simp only [read, if_true, this, if_false] at h3
        rw [read_below (lo := j + 1) (by omega) h1.2] at h3
        exact absurd h3.symm h2.1.2
    subst hj
    have hb : b = b' := by simpa [read] using h j
    subst hb
    have : m = m' := eq_of_read_from h1.2 h2.2 (fun k => by
      by_cases hk : k = j
      · subst hk
        rw [read_below (Nat.lt_succ_self k) h1.2, read_below (Nat.lt_succ_self k) h2.2]
      · have := h k
        simpa [read, hk] using this)
    rw [this]

/-- Two canonical stores that read the same are the same data. -/
theorem eq_of_read {m1 m2 : Memory} (h1 : m1.wf = true) (h2 : m2.wf = true) (h : ∀ k, read k m1 = read k m2) : m1 = m2 :=
  eq_of_read_from h1 h2 h

end Memory

end Sys2Proof.Machine
end

