-- ==== Sys2Proof/Laws/State.lean ====
section
/-! SUPPORT. One lemma per field per update of `State`, each true by unfolding the record. -/

namespace Sys2Proof.Machine

@[simp] theorem setA_a (s : State) (v : Byte) : (s.setA v).a = v := rfl
@[simp] theorem setA_x (s : State) (v : Byte) : (s.setA v).x = s.x := rfl
@[simp] theorem setA_y (s : State) (v : Byte) : (s.setA v).y = s.y := rfl
@[simp] theorem setA_sp (s : State) (v : Byte) : (s.setA v).sp = s.sp := rfl
@[simp] theorem setA_pc (s : State) (v : Byte) : (s.setA v).pc = s.pc := rfl
@[simp] theorem setA_p (s : State) (v : Byte) : (s.setA v).p = s.p := rfl
@[simp] theorem setA_sw (s : State) (v : Byte) : (s.setA v).sw = s.sw := rfl
@[simp] theorem setA_ram (s : State) (v : Byte) : (s.setA v).ram = s.ram := rfl
@[simp] theorem setA_rom (s : State) (v : Byte) : (s.setA v).rom = s.rom := rfl
@[simp] theorem setA_swlog (s : State) (v : Byte) : (s.setA v).swlog = s.swlog := rfl
@[simp] theorem setA_buslog (s : State) (v : Byte) : (s.setA v).buslog = s.buslog := rfl
@[simp] theorem setA_cycles (s : State) (v : Byte) : (s.setA v).cycles = s.cycles := rfl
@[simp] theorem setA_fault (s : State) (v : Byte) : (s.setA v).fault = s.fault := rfl
@[simp] theorem setA_refusal (s : State) (v : Byte) : (s.setA v).refusal = s.refusal := rfl
@[simp] theorem setA_powerOn (s : State) (v : Byte) : (s.setA v).powerOn = s.powerOn := rfl
@[simp] theorem setA_cfg (s : State) (v : Byte) : (s.setA v).cfg = s.cfg := rfl
@[simp] theorem setA_inputs (s : State) (v : Byte) : (s.setA v).inputs = s.inputs := rfl
@[simp] theorem setA_ioDraws (s : State) (v : Byte) : (s.setA v).ioDraws = s.ioDraws := rfl
@[simp] theorem setA_suppressDraws (s : State) (v : Byte) : (s.setA v).suppressDraws = s.suppressDraws := rfl

@[simp] theorem setX_a (s : State) (v : Byte) : (s.setX v).a = s.a := rfl
@[simp] theorem setX_x (s : State) (v : Byte) : (s.setX v).x = v := rfl
@[simp] theorem setX_y (s : State) (v : Byte) : (s.setX v).y = s.y := rfl
@[simp] theorem setX_sp (s : State) (v : Byte) : (s.setX v).sp = s.sp := rfl
@[simp] theorem setX_pc (s : State) (v : Byte) : (s.setX v).pc = s.pc := rfl
@[simp] theorem setX_p (s : State) (v : Byte) : (s.setX v).p = s.p := rfl
@[simp] theorem setX_sw (s : State) (v : Byte) : (s.setX v).sw = s.sw := rfl
@[simp] theorem setX_ram (s : State) (v : Byte) : (s.setX v).ram = s.ram := rfl
@[simp] theorem setX_rom (s : State) (v : Byte) : (s.setX v).rom = s.rom := rfl
@[simp] theorem setX_swlog (s : State) (v : Byte) : (s.setX v).swlog = s.swlog := rfl
@[simp] theorem setX_buslog (s : State) (v : Byte) : (s.setX v).buslog = s.buslog := rfl
@[simp] theorem setX_cycles (s : State) (v : Byte) : (s.setX v).cycles = s.cycles := rfl
@[simp] theorem setX_fault (s : State) (v : Byte) : (s.setX v).fault = s.fault := rfl
@[simp] theorem setX_refusal (s : State) (v : Byte) : (s.setX v).refusal = s.refusal := rfl
@[simp] theorem setX_powerOn (s : State) (v : Byte) : (s.setX v).powerOn = s.powerOn := rfl
@[simp] theorem setX_cfg (s : State) (v : Byte) : (s.setX v).cfg = s.cfg := rfl
@[simp] theorem setX_inputs (s : State) (v : Byte) : (s.setX v).inputs = s.inputs := rfl
@[simp] theorem setX_ioDraws (s : State) (v : Byte) : (s.setX v).ioDraws = s.ioDraws := rfl
@[simp] theorem setX_suppressDraws (s : State) (v : Byte) : (s.setX v).suppressDraws = s.suppressDraws := rfl

@[simp] theorem setY_a (s : State) (v : Byte) : (s.setY v).a = s.a := rfl
@[simp] theorem setY_x (s : State) (v : Byte) : (s.setY v).x = s.x := rfl
@[simp] theorem setY_y (s : State) (v : Byte) : (s.setY v).y = v := rfl
@[simp] theorem setY_sp (s : State) (v : Byte) : (s.setY v).sp = s.sp := rfl
@[simp] theorem setY_pc (s : State) (v : Byte) : (s.setY v).pc = s.pc := rfl
@[simp] theorem setY_p (s : State) (v : Byte) : (s.setY v).p = s.p := rfl
@[simp] theorem setY_sw (s : State) (v : Byte) : (s.setY v).sw = s.sw := rfl
@[simp] theorem setY_ram (s : State) (v : Byte) : (s.setY v).ram = s.ram := rfl
@[simp] theorem setY_rom (s : State) (v : Byte) : (s.setY v).rom = s.rom := rfl
@[simp] theorem setY_swlog (s : State) (v : Byte) : (s.setY v).swlog = s.swlog := rfl
@[simp] theorem setY_buslog (s : State) (v : Byte) : (s.setY v).buslog = s.buslog := rfl
@[simp] theorem setY_cycles (s : State) (v : Byte) : (s.setY v).cycles = s.cycles := rfl
@[simp] theorem setY_fault (s : State) (v : Byte) : (s.setY v).fault = s.fault := rfl
@[simp] theorem setY_refusal (s : State) (v : Byte) : (s.setY v).refusal = s.refusal := rfl
@[simp] theorem setY_powerOn (s : State) (v : Byte) : (s.setY v).powerOn = s.powerOn := rfl
@[simp] theorem setY_cfg (s : State) (v : Byte) : (s.setY v).cfg = s.cfg := rfl
@[simp] theorem setY_inputs (s : State) (v : Byte) : (s.setY v).inputs = s.inputs := rfl
@[simp] theorem setY_ioDraws (s : State) (v : Byte) : (s.setY v).ioDraws = s.ioDraws := rfl
@[simp] theorem setY_suppressDraws (s : State) (v : Byte) : (s.setY v).suppressDraws = s.suppressDraws := rfl

@[simp] theorem setSp_a (s : State) (v : Byte) : (s.setSp v).a = s.a := rfl
@[simp] theorem setSp_x (s : State) (v : Byte) : (s.setSp v).x = s.x := rfl
@[simp] theorem setSp_y (s : State) (v : Byte) : (s.setSp v).y = s.y := rfl
@[simp] theorem setSp_sp (s : State) (v : Byte) : (s.setSp v).sp = v := rfl
@[simp] theorem setSp_pc (s : State) (v : Byte) : (s.setSp v).pc = s.pc := rfl
@[simp] theorem setSp_p (s : State) (v : Byte) : (s.setSp v).p = s.p := rfl
@[simp] theorem setSp_sw (s : State) (v : Byte) : (s.setSp v).sw = s.sw := rfl
@[simp] theorem setSp_ram (s : State) (v : Byte) : (s.setSp v).ram = s.ram := rfl
@[simp] theorem setSp_rom (s : State) (v : Byte) : (s.setSp v).rom = s.rom := rfl
@[simp] theorem setSp_swlog (s : State) (v : Byte) : (s.setSp v).swlog = s.swlog := rfl
@[simp] theorem setSp_buslog (s : State) (v : Byte) : (s.setSp v).buslog = s.buslog := rfl
@[simp] theorem setSp_cycles (s : State) (v : Byte) : (s.setSp v).cycles = s.cycles := rfl
@[simp] theorem setSp_fault (s : State) (v : Byte) : (s.setSp v).fault = s.fault := rfl
@[simp] theorem setSp_refusal (s : State) (v : Byte) : (s.setSp v).refusal = s.refusal := rfl
@[simp] theorem setSp_powerOn (s : State) (v : Byte) : (s.setSp v).powerOn = s.powerOn := rfl
@[simp] theorem setSp_cfg (s : State) (v : Byte) : (s.setSp v).cfg = s.cfg := rfl
@[simp] theorem setSp_inputs (s : State) (v : Byte) : (s.setSp v).inputs = s.inputs := rfl
@[simp] theorem setSp_ioDraws (s : State) (v : Byte) : (s.setSp v).ioDraws = s.ioDraws := rfl
@[simp] theorem setSp_suppressDraws (s : State) (v : Byte) : (s.setSp v).suppressDraws = s.suppressDraws := rfl

@[simp] theorem setPc_a (s : State) (w : Word) : (s.setPc w).a = s.a := rfl
@[simp] theorem setPc_x (s : State) (w : Word) : (s.setPc w).x = s.x := rfl
@[simp] theorem setPc_y (s : State) (w : Word) : (s.setPc w).y = s.y := rfl
@[simp] theorem setPc_sp (s : State) (w : Word) : (s.setPc w).sp = s.sp := rfl
@[simp] theorem setPc_pc (s : State) (w : Word) : (s.setPc w).pc = w := rfl
@[simp] theorem setPc_p (s : State) (w : Word) : (s.setPc w).p = s.p := rfl
@[simp] theorem setPc_sw (s : State) (w : Word) : (s.setPc w).sw = s.sw := rfl
@[simp] theorem setPc_ram (s : State) (w : Word) : (s.setPc w).ram = s.ram := rfl
@[simp] theorem setPc_rom (s : State) (w : Word) : (s.setPc w).rom = s.rom := rfl
@[simp] theorem setPc_swlog (s : State) (w : Word) : (s.setPc w).swlog = s.swlog := rfl
@[simp] theorem setPc_buslog (s : State) (w : Word) : (s.setPc w).buslog = s.buslog := rfl
@[simp] theorem setPc_cycles (s : State) (w : Word) : (s.setPc w).cycles = s.cycles := rfl
@[simp] theorem setPc_fault (s : State) (w : Word) : (s.setPc w).fault = s.fault := rfl
@[simp] theorem setPc_refusal (s : State) (w : Word) : (s.setPc w).refusal = s.refusal := rfl
@[simp] theorem setPc_powerOn (s : State) (w : Word) : (s.setPc w).powerOn = s.powerOn := rfl
@[simp] theorem setPc_cfg (s : State) (w : Word) : (s.setPc w).cfg = s.cfg := rfl
@[simp] theorem setPc_inputs (s : State) (w : Word) : (s.setPc w).inputs = s.inputs := rfl
@[simp] theorem setPc_ioDraws (s : State) (w : Word) : (s.setPc w).ioDraws = s.ioDraws := rfl
@[simp] theorem setPc_suppressDraws (s : State) (w : Word) : (s.setPc w).suppressDraws = s.suppressDraws := rfl

@[simp] theorem setFlags_a (s : State) (p : Flags) : (s.setFlags p).a = s.a := rfl
@[simp] theorem setFlags_x (s : State) (p : Flags) : (s.setFlags p).x = s.x := rfl
@[simp] theorem setFlags_y (s : State) (p : Flags) : (s.setFlags p).y = s.y := rfl
@[simp] theorem setFlags_sp (s : State) (p : Flags) : (s.setFlags p).sp = s.sp := rfl
@[simp] theorem setFlags_pc (s : State) (p : Flags) : (s.setFlags p).pc = s.pc := rfl
@[simp] theorem setFlags_p (s : State) (p : Flags) : (s.setFlags p).p = p := rfl
@[simp] theorem setFlags_sw (s : State) (p : Flags) : (s.setFlags p).sw = s.sw := rfl
@[simp] theorem setFlags_ram (s : State) (p : Flags) : (s.setFlags p).ram = s.ram := rfl
@[simp] theorem setFlags_rom (s : State) (p : Flags) : (s.setFlags p).rom = s.rom := rfl
@[simp] theorem setFlags_swlog (s : State) (p : Flags) : (s.setFlags p).swlog = s.swlog := rfl
@[simp] theorem setFlags_buslog (s : State) (p : Flags) : (s.setFlags p).buslog = s.buslog := rfl
@[simp] theorem setFlags_cycles (s : State) (p : Flags) : (s.setFlags p).cycles = s.cycles := rfl
@[simp] theorem setFlags_fault (s : State) (p : Flags) : (s.setFlags p).fault = s.fault := rfl
@[simp] theorem setFlags_refusal (s : State) (p : Flags) : (s.setFlags p).refusal = s.refusal := rfl
@[simp] theorem setFlags_powerOn (s : State) (p : Flags) : (s.setFlags p).powerOn = s.powerOn := rfl
@[simp] theorem setFlags_cfg (s : State) (p : Flags) : (s.setFlags p).cfg = s.cfg := rfl
@[simp] theorem setFlags_inputs (s : State) (p : Flags) : (s.setFlags p).inputs = s.inputs := rfl
@[simp] theorem setFlags_ioDraws (s : State) (p : Flags) : (s.setFlags p).ioDraws = s.ioDraws := rfl
@[simp] theorem setFlags_suppressDraws (s : State) (p : Flags) : (s.setFlags p).suppressDraws = s.suppressDraws := rfl

@[simp] theorem setNZ_a (s : State) (v : Byte) : (s.setNZ v).a = s.a := rfl
@[simp] theorem setNZ_x (s : State) (v : Byte) : (s.setNZ v).x = s.x := rfl
@[simp] theorem setNZ_y (s : State) (v : Byte) : (s.setNZ v).y = s.y := rfl
@[simp] theorem setNZ_sp (s : State) (v : Byte) : (s.setNZ v).sp = s.sp := rfl
@[simp] theorem setNZ_pc (s : State) (v : Byte) : (s.setNZ v).pc = s.pc := rfl
@[simp] theorem setNZ_p (s : State) (v : Byte) : (s.setNZ v).p = s.p.setNZ v := rfl
@[simp] theorem setNZ_sw (s : State) (v : Byte) : (s.setNZ v).sw = s.sw := rfl
@[simp] theorem setNZ_ram (s : State) (v : Byte) : (s.setNZ v).ram = s.ram := rfl
@[simp] theorem setNZ_rom (s : State) (v : Byte) : (s.setNZ v).rom = s.rom := rfl
@[simp] theorem setNZ_swlog (s : State) (v : Byte) : (s.setNZ v).swlog = s.swlog := rfl
@[simp] theorem setNZ_buslog (s : State) (v : Byte) : (s.setNZ v).buslog = s.buslog := rfl
@[simp] theorem setNZ_cycles (s : State) (v : Byte) : (s.setNZ v).cycles = s.cycles := rfl
@[simp] theorem setNZ_fault (s : State) (v : Byte) : (s.setNZ v).fault = s.fault := rfl
@[simp] theorem setNZ_refusal (s : State) (v : Byte) : (s.setNZ v).refusal = s.refusal := rfl
@[simp] theorem setNZ_powerOn (s : State) (v : Byte) : (s.setNZ v).powerOn = s.powerOn := rfl
@[simp] theorem setNZ_cfg (s : State) (v : Byte) : (s.setNZ v).cfg = s.cfg := rfl
@[simp] theorem setNZ_inputs (s : State) (v : Byte) : (s.setNZ v).inputs = s.inputs := rfl
@[simp] theorem setNZ_ioDraws (s : State) (v : Byte) : (s.setNZ v).ioDraws = s.ioDraws := rfl
@[simp] theorem setNZ_suppressDraws (s : State) (v : Byte) : (s.setNZ v).suppressDraws = s.suppressDraws := rfl

@[simp] theorem tick_a (s : State) : (s.tick).a = s.a := rfl
@[simp] theorem tick_x (s : State) : (s.tick).x = s.x := rfl
@[simp] theorem tick_y (s : State) : (s.tick).y = s.y := rfl
@[simp] theorem tick_sp (s : State) : (s.tick).sp = s.sp := rfl
@[simp] theorem tick_pc (s : State) : (s.tick).pc = s.pc := rfl
@[simp] theorem tick_p (s : State) : (s.tick).p = s.p := rfl
@[simp] theorem tick_sw (s : State) : (s.tick).sw = s.sw := rfl
@[simp] theorem tick_ram (s : State) : (s.tick).ram = s.ram := rfl
@[simp] theorem tick_rom (s : State) : (s.tick).rom = s.rom := rfl
@[simp] theorem tick_swlog (s : State) : (s.tick).swlog = s.swlog := rfl
@[simp] theorem tick_buslog (s : State) : (s.tick).buslog = s.buslog := rfl
@[simp] theorem tick_cycles (s : State) : (s.tick).cycles = s.cycles + 1 := rfl
@[simp] theorem tick_fault (s : State) : (s.tick).fault = s.fault := rfl
@[simp] theorem tick_refusal (s : State) : (s.tick).refusal = s.refusal := rfl
@[simp] theorem tick_powerOn (s : State) : (s.tick).powerOn = s.powerOn := rfl
@[simp] theorem tick_cfg (s : State) : (s.tick).cfg = s.cfg := rfl
@[simp] theorem tick_inputs (s : State) : (s.tick).inputs = s.inputs := rfl
@[simp] theorem tick_ioDraws (s : State) : (s.tick).ioDraws = s.ioDraws := rfl
@[simp] theorem tick_suppressDraws (s : State) : (s.tick).suppressDraws = s.suppressDraws := rfl

@[simp] theorem logEvent_a (s : State) (e : BusEvent) : (s.logEvent e).a = s.a := rfl
@[simp] theorem logEvent_x (s : State) (e : BusEvent) : (s.logEvent e).x = s.x := rfl
@[simp] theorem logEvent_y (s : State) (e : BusEvent) : (s.logEvent e).y = s.y := rfl
@[simp] theorem logEvent_sp (s : State) (e : BusEvent) : (s.logEvent e).sp = s.sp := rfl
@[simp] theorem logEvent_pc (s : State) (e : BusEvent) : (s.logEvent e).pc = s.pc := rfl
@[simp] theorem logEvent_p (s : State) (e : BusEvent) : (s.logEvent e).p = s.p := rfl
@[simp] theorem logEvent_sw (s : State) (e : BusEvent) : (s.logEvent e).sw = s.sw := rfl
@[simp] theorem logEvent_ram (s : State) (e : BusEvent) : (s.logEvent e).ram = s.ram := rfl
@[simp] theorem logEvent_rom (s : State) (e : BusEvent) : (s.logEvent e).rom = s.rom := rfl
@[simp] theorem logEvent_swlog (s : State) (e : BusEvent) : (s.logEvent e).swlog = s.swlog := rfl
@[simp] theorem logEvent_buslog (s : State) (e : BusEvent) : (s.logEvent e).buslog = s.buslog ++ [e] := rfl
@[simp] theorem logEvent_cycles (s : State) (e : BusEvent) : (s.logEvent e).cycles = s.cycles := rfl
@[simp] theorem logEvent_fault (s : State) (e : BusEvent) : (s.logEvent e).fault = s.fault := rfl
@[simp] theorem logEvent_refusal (s : State) (e : BusEvent) : (s.logEvent e).refusal = s.refusal := rfl
@[simp] theorem logEvent_powerOn (s : State) (e : BusEvent) : (s.logEvent e).powerOn = s.powerOn := rfl
@[simp] theorem logEvent_cfg (s : State) (e : BusEvent) : (s.logEvent e).cfg = s.cfg := rfl
@[simp] theorem logEvent_inputs (s : State) (e : BusEvent) : (s.logEvent e).inputs = s.inputs := rfl
@[simp] theorem logEvent_ioDraws (s : State) (e : BusEvent) : (s.logEvent e).ioDraws = s.ioDraws := rfl
@[simp] theorem logEvent_suppressDraws (s : State) (e : BusEvent) : (s.logEvent e).suppressDraws = s.suppressDraws := rfl

@[simp] theorem raiseFault_a (s : State) (f : Fault) : (raiseFault f s).a = s.a := rfl
@[simp] theorem raiseFault_x (s : State) (f : Fault) : (raiseFault f s).x = s.x := rfl
@[simp] theorem raiseFault_y (s : State) (f : Fault) : (raiseFault f s).y = s.y := rfl
@[simp] theorem raiseFault_sp (s : State) (f : Fault) : (raiseFault f s).sp = s.sp := rfl
@[simp] theorem raiseFault_pc (s : State) (f : Fault) : (raiseFault f s).pc = s.pc := rfl
@[simp] theorem raiseFault_p (s : State) (f : Fault) : (raiseFault f s).p = s.p := rfl
@[simp] theorem raiseFault_sw (s : State) (f : Fault) : (raiseFault f s).sw = s.sw := rfl
@[simp] theorem raiseFault_ram (s : State) (f : Fault) : (raiseFault f s).ram = s.ram := rfl
@[simp] theorem raiseFault_rom (s : State) (f : Fault) : (raiseFault f s).rom = s.rom := rfl
@[simp] theorem raiseFault_swlog (s : State) (f : Fault) : (raiseFault f s).swlog = s.swlog := rfl
@[simp] theorem raiseFault_buslog (s : State) (f : Fault) : (raiseFault f s).buslog = s.buslog := rfl
@[simp] theorem raiseFault_cycles (s : State) (f : Fault) : (raiseFault f s).cycles = s.cycles := rfl
@[simp] theorem raiseFault_fault (s : State) (f : Fault) : (raiseFault f s).fault = some f := rfl
@[simp] theorem raiseFault_refusal (s : State) (f : Fault) : (raiseFault f s).refusal = s.refusal := rfl
@[simp] theorem raiseFault_powerOn (s : State) (f : Fault) : (raiseFault f s).powerOn = s.powerOn := rfl
@[simp] theorem raiseFault_cfg (s : State) (f : Fault) : (raiseFault f s).cfg = s.cfg := rfl
@[simp] theorem raiseFault_inputs (s : State) (f : Fault) : (raiseFault f s).inputs = s.inputs := rfl
@[simp] theorem raiseFault_ioDraws (s : State) (f : Fault) : (raiseFault f s).ioDraws = s.ioDraws := rfl
@[simp] theorem raiseFault_suppressDraws (s : State) (f : Fault) : (raiseFault f s).suppressDraws = s.suppressDraws := rfl

@[simp] theorem takeInput_a (s : State) : (takeInput s).a = s.a := rfl
@[simp] theorem takeInput_x (s : State) : (takeInput s).x = s.x := rfl
@[simp] theorem takeInput_y (s : State) : (takeInput s).y = s.y := rfl
@[simp] theorem takeInput_sp (s : State) : (takeInput s).sp = s.sp := rfl
@[simp] theorem takeInput_pc (s : State) : (takeInput s).pc = s.pc := rfl
@[simp] theorem takeInput_p (s : State) : (takeInput s).p = s.p := rfl
@[simp] theorem takeInput_sw (s : State) : (takeInput s).sw = s.sw := rfl
@[simp] theorem takeInput_ram (s : State) : (takeInput s).ram = s.ram := rfl
@[simp] theorem takeInput_rom (s : State) : (takeInput s).rom = s.rom := rfl
@[simp] theorem takeInput_swlog (s : State) : (takeInput s).swlog = s.swlog := rfl
@[simp] theorem takeInput_buslog (s : State) : (takeInput s).buslog = s.buslog := rfl
@[simp] theorem takeInput_cycles (s : State) : (takeInput s).cycles = s.cycles := rfl
@[simp] theorem takeInput_fault (s : State) : (takeInput s).fault = s.fault := rfl
@[simp] theorem takeInput_refusal (s : State) : (takeInput s).refusal = s.refusal := rfl
@[simp] theorem takeInput_powerOn (s : State) : (takeInput s).powerOn = s.powerOn := rfl
@[simp] theorem takeInput_cfg (s : State) : (takeInput s).cfg = s.cfg := rfl
@[simp] theorem takeInput_inputs (s : State) : (takeInput s).inputs = s.inputs.tail := rfl
@[simp] theorem takeInput_ioDraws (s : State) : (takeInput s).ioDraws = s.ioDraws := rfl
@[simp] theorem takeInput_suppressDraws (s : State) : (takeInput s).suppressDraws = s.suppressDraws := rfl

@[simp] theorem setSilent_a (s : State) (f : Switch) (b : Bool) : (setSilent f b s).a = s.a := rfl
@[simp] theorem setSilent_x (s : State) (f : Switch) (b : Bool) : (setSilent f b s).x = s.x := rfl
@[simp] theorem setSilent_y (s : State) (f : Switch) (b : Bool) : (setSilent f b s).y = s.y := rfl
@[simp] theorem setSilent_sp (s : State) (f : Switch) (b : Bool) : (setSilent f b s).sp = s.sp := rfl
@[simp] theorem setSilent_pc (s : State) (f : Switch) (b : Bool) : (setSilent f b s).pc = s.pc := rfl
@[simp] theorem setSilent_p (s : State) (f : Switch) (b : Bool) : (setSilent f b s).p = s.p := rfl
@[simp] theorem setSilent_sw (s : State) (f : Switch) (b : Bool) : (setSilent f b s).sw = s.sw.set f b := rfl
@[simp] theorem setSilent_ram (s : State) (f : Switch) (b : Bool) : (setSilent f b s).ram = s.ram := rfl
@[simp] theorem setSilent_rom (s : State) (f : Switch) (b : Bool) : (setSilent f b s).rom = s.rom := rfl
@[simp] theorem setSilent_swlog (s : State) (f : Switch) (b : Bool) : (setSilent f b s).swlog = s.swlog := rfl
@[simp] theorem setSilent_buslog (s : State) (f : Switch) (b : Bool) : (setSilent f b s).buslog = s.buslog := rfl
@[simp] theorem setSilent_cycles (s : State) (f : Switch) (b : Bool) : (setSilent f b s).cycles = s.cycles := rfl
@[simp] theorem setSilent_fault (s : State) (f : Switch) (b : Bool) : (setSilent f b s).fault = s.fault := rfl
@[simp] theorem setSilent_refusal (s : State) (f : Switch) (b : Bool) : (setSilent f b s).refusal = s.refusal := rfl
@[simp] theorem setSilent_powerOn (s : State) (f : Switch) (b : Bool) : (setSilent f b s).powerOn = s.powerOn := rfl
@[simp] theorem setSilent_cfg (s : State) (f : Switch) (b : Bool) : (setSilent f b s).cfg = s.cfg := rfl
@[simp] theorem setSilent_inputs (s : State) (f : Switch) (b : Bool) : (setSilent f b s).inputs = s.inputs := rfl
@[simp] theorem setSilent_ioDraws (s : State) (f : Switch) (b : Bool) : (setSilent f b s).ioDraws = s.ioDraws := rfl
@[simp] theorem setSilent_suppressDraws (s : State) (f : Switch) (b : Bool) : (setSilent f b s).suppressDraws = s.suppressDraws := rfl

end Sys2Proof.Machine
end

