-- ==== Sys2Proof/Laws/Switches.lean ====
section
/-! SUPPORT. The registry's get and set, and what the side effects of a bus cycle can do: they change the switches and the
switch log only, whatever the registers hold. -/

namespace Sys2Proof.Machine

@[simp] theorem Registry.get_set_same (r : Registry) (f : Switch) (b : Bool) : (r.set f b).get f = b := by
  cases f <;> rfl

theorem Registry.get_set_other (r : Registry) {f g : Switch} (b : Bool) (h : g ≠ f) : (r.set f b).get g = r.get g := by
  cases f <;> cases g <;> first | rfl | exact absurd rfl h

/-- Setting a switch to the value it holds changes nothing. -/
theorem Registry.set_get (r : Registry) (f : Switch) : r.set f (r.get f) = r := by
  cases f <;> rfl

/-- Every switch is the switch of its index. -/
@[simp] theorem Switch.ofIndex_index (f : Switch) : Switch.ofIndex f.index = some f := by
  cases f <;> rfl

theorem Switch.ofIndex_eq_none {f : Nat} : Switch.ofIndex f = none ↔ 16 ≤ f := by
  simp [Switch.ofIndex, Switch.all]

/-- Everything `set_and_notify` can do: set the switch, and append one entry exactly when the value changes. -/
theorem setAndNotify_eq (f : Switch) (b : Bool) (s : State) :
    setAndNotify f b s =
      { s with
        sw := s.sw.set f b
        swlog := s.swlog ++ (if s.sw.get f = b then [] else [⟨s.cycles, f, b⟩]) } := by
  unfold setAndNotify
  split
  · next h => subst h; simp [Registry.set_get]
  · rfl

/-- `t` differs from `s` in the switches and the switch log only, the log grown by entries of this cycle. -/
structure SwitchesOnly (s t : State) : Prop where
  frame : t = { s with sw := t.sw, swlog := t.swlog }
  log : ∃ es, t.swlog = s.swlog ++ es ∧ ∀ e ∈ es, e.cycle = s.cycles

theorem SwitchesOnly.refl (s : State) : SwitchesOnly s s := ⟨rfl, [], by simp⟩

theorem SwitchesOnly.cycles_eq {s t : State} (h : SwitchesOnly s t) : t.cycles = s.cycles := by
  rw [h.frame]

theorem SwitchesOnly.trans {s t u : State} (h1 : SwitchesOnly s t) (h2 : SwitchesOnly t u) : SwitchesOnly s u := by
  obtain ⟨f1, es1, l1, c1⟩ := h1
  obtain ⟨f2, es2, l2, c2⟩ := h2
  have hc : t.cycles = s.cycles := by rw [f1]
  refine ⟨?_, es1 ++ es2, by rw [l2, l1, List.append_assoc], ?_⟩
  · rw [f2, f1]
  · intro e he
    rcases List.mem_append.1 he with h | h
    · exact c1 e h
    · rw [c2 e h, hc]

theorem setAndNotify_only (f : Switch) (b : Bool) (s : State) : SwitchesOnly s (setAndNotify f b s) := by
  rw [setAndNotify_eq]
  refine ⟨rfl, _, rfl, ?_⟩
  intro e he
  split at he <;> simp_all

theorem lcWriteEnable_only (addr : Word) (isRead : Bool) (s : State) : SwitchesOnly s (lcWriteEnable addr isRead s) := by
  unfold lcWriteEnable
  split
  · exact (setAndNotify_only _ _ _).trans (setAndNotify_only _ _ _)
  split
  · split
    · exact (setAndNotify_only _ _ _).trans (setAndNotify_only _ _ _)
    · exact setAndNotify_only _ _ _
  · exact setAndNotify_only _ _ _

theorem lcAccess_only (addr : Word) (isRead : Bool) (s : State) : SwitchesOnly s (lcAccess addr isRead s) :=
  ((setAndNotify_only _ _ _).trans (setAndNotify_only _ _ _)).trans (lcWriteEnable_only _ _ _)

/-- Everything the side effects of a cycle can do. -/
theorem sideEffects_only (addr : Word) (isRead : Bool) (s : State) : SwitchesOnly s (sideEffects addr isRead s) := by
  unfold sideEffects
  split
  · split
    · exact lcAccess_only _ _ _
    · exact SwitchesOnly.refl _
  split
  · exact setAndNotify_only _ _ _
  split
  · split
    · exact setAndNotify_only _ _ _
    · exact SwitchesOnly.refl _
  · exact SwitchesOnly.refl _

/-- Outside the I/O page a cycle has no side effect (20_memory.md R90). -/
theorem sideEffects_outside (addr : Word) (isRead : Bool) (s : State) (h : addr < 0xC000 ∨ 0xD000 ≤ addr) :
    sideEffects addr isRead s = s := by
  have h' : addr.toNat < 0xC000 ∨ 0xD000 ≤ addr.toNat := by
    rcases h with h | h
    · exact .inl h
    · exact .inr h
  have r1 : inRange 0xC080 addr 0xC08F = false := by
    simp only [inRange, BitVec.le_def, Bool.and_eq_false_iff, decide_eq_false_iff_not]
    change ¬ 0xC080 ≤ _ ∨ ¬ _ ≤ 0xC08F
    omega
  have r2 : inRange 0xC050 addr 0xC057 = false := by
    simp only [inRange, BitVec.le_def, Bool.and_eq_false_iff, decide_eq_false_iff_not]
    change ¬ 0xC050 ≤ _ ∨ ¬ _ ≤ 0xC057
    omega
  have r3 : inRange 0xC000 addr 0xC00F = false := by
    simp only [inRange, BitVec.le_def, Bool.and_eq_false_iff, decide_eq_false_iff_not]
    change ¬ 0xC000 ≤ _ ∨ ¬ _ ≤ 0xC00F
    omega
  unfold sideEffects
  rw [r1, r2, r3]
  rfl

/-! ### The side effects do not see the registers -/

/-- The same state with other registers. -/
def State.withRegs (s : State) (a x y sp : Byte) (pc : Word) (p : Flags) : State :=
  { s with a := a, x := x, y := y, sp := sp, pc := pc, p := p }

theorem setAndNotify_withRegs (f : Switch) (b : Bool) (s : State) (a x y sp : Byte) (pc : Word) (p : Flags) :
    setAndNotify f b (s.withRegs a x y sp pc p) = (setAndNotify f b s).withRegs a x y sp pc p := by
  simp only [setAndNotify_eq]
  rfl

theorem sideEffects_withRegs (addr : Word) (isRead : Bool) (s : State) (a x y sp : Byte) (pc : Word) (p : Flags) :
    sideEffects addr isRead (s.withRegs a x y sp pc p) = (sideEffects addr isRead s).withRegs a x y sp pc p := by
  have hcfg : ∀ t : State, (t.withRegs a x y sp pc p).cfg = t.cfg := fun _ => rfl
  have hsw : ∀ t : State, (t.withRegs a x y sp pc p).sw = t.sw := fun _ => rfl
  unfold sideEffects lcAccess lcWriteEnable displayAccess iieWrite
  simp only [setAndNotify_withRegs, hcfg, hsw]
  repeat' split
  all_goals first | rfl | simp only [setAndNotify_withRegs]

end Sys2Proof.Machine
end

