-- ==== Sys2Proof/Laws/Bus.lean ====
section
/-! SUPPORT. What a bus cycle can do, said once: `afterRead_eq` and `memWrite_eq`; and what a run of cycles can do, from
them by induction over the trace. -/

namespace Sys2Proof.Machine

/-- Everything a read cycle can do (20_memory.md R68). -/
theorem afterRead_eq (addr : Word) (s : State) :
    afterRead addr s =
      { s with
        sw := (afterRead addr s).sw
        swlog := (afterRead addr s).swlog
        buslog := s.buslog ++ [peekEvent addr s]
        cycles := s.cycles + 1
        ioDraws := if readDraws addr s then s.ioDraws.tail else s.ioDraws } :=
  congrArg State.tick (sideEffects_only addr true (({ s with
    ioDraws := if readDraws addr s then s.ioDraws.tail else s.ioDraws } : State).logEvent (peekEvent addr s))).frame

/-- The switch log of a read cycle grows by entries of that cycle. -/
theorem afterRead_swlog (addr : Word) (s : State) :
    ∃ es, (afterRead addr s).swlog = s.swlog ++ es ∧ ∀ e ∈ es, e.cycle = s.cycles :=
  (sideEffects_only addr true (({ s with
    ioDraws := if readDraws addr s then s.ioDraws.tail else s.ioDraws } : State).logEvent (peekEvent addr s))).log

/-- Everything a write cycle can do (20_memory.md R69). -/
theorem memWrite_eq (addr : Word) (v : Byte) (s : State) :
    memWrite addr v s =
      { s with
        sw := (memWrite addr v s).sw
        swlog := (memWrite addr v s).swlog
        ram := storedRam addr v s
        buslog := s.buslog ++ [pokeEvent addr v s]
        cycles := s.cycles + 1
        suppressDraws := if s.cfg.isHooked addr then s.suppressDraws.tail else s.suppressDraws } :=
  congrArg State.tick (sideEffects_only addr false (({ s with
    suppressDraws := if s.cfg.isHooked addr then s.suppressDraws.tail else s.suppressDraws
    ram := storedRam addr v s } : State).logEvent (pokeEvent addr v s))).frame

/-- The switch log of a write cycle grows by entries of that cycle. -/
theorem memWrite_swlog (addr : Word) (v : Byte) (s : State) :
    ∃ es, (memWrite addr v s).swlog = s.swlog ++ es ∧ ∀ e ∈ es, e.cycle = s.cycles :=
  (sideEffects_only addr false (({ s with
    suppressDraws := if s.cfg.isHooked addr then s.suppressDraws.tail else s.suppressDraws
    ram := storedRam addr v s } : State).logEvent (pokeEvent addr v s))).log

/-! ### The fields a cycle leaves alone -/

section
variable (addr : Word) (v : Byte) (s : State)

@[simp] theorem afterRead_a : (afterRead addr s).a = s.a := by rw [afterRead_eq]
@[simp] theorem afterRead_x : (afterRead addr s).x = s.x := by rw [afterRead_eq]
@[simp] theorem afterRead_y : (afterRead addr s).y = s.y := by rw [afterRead_eq]
@[simp] theorem afterRead_sp : (afterRead addr s).sp = s.sp := by rw [afterRead_eq]
@[simp] theorem afterRead_pc : (afterRead addr s).pc = s.pc := by rw [afterRead_eq]
@[simp] theorem afterRead_p : (afterRead addr s).p = s.p := by rw [afterRead_eq]
@[simp] theorem afterRead_ram : (afterRead addr s).ram = s.ram := by rw [afterRead_eq]
@[simp] theorem afterRead_rom : (afterRead addr s).rom = s.rom := by rw [afterRead_eq]
@[simp] theorem afterRead_buslog : (afterRead addr s).buslog = s.buslog ++ [peekEvent addr s] := by rw [afterRead_eq]
@[simp] theorem afterRead_cycles : (afterRead addr s).cycles = s.cycles + 1 := by rw [afterRead_eq]
@[simp] theorem afterRead_fault : (afterRead addr s).fault = s.fault := by rw [afterRead_eq]
@[simp] theorem afterRead_refusal : (afterRead addr s).refusal = s.refusal := by rw [afterRead_eq]
@[simp] theorem afterRead_powerOn : (afterRead addr s).powerOn = s.powerOn := by rw [afterRead_eq]
@[simp] theorem afterRead_cfg : (afterRead addr s).cfg = s.cfg := by rw [afterRead_eq]
@[simp] theorem afterRead_inputs : (afterRead addr s).inputs = s.inputs := by rw [afterRead_eq]
@[simp] theorem afterRead_suppressDraws : (afterRead addr s).suppressDraws = s.suppressDraws := by rw [afterRead_eq]

@[simp] theorem memWrite_a : (memWrite addr v s).a = s.a := by rw [memWrite_eq]
@[simp] theorem memWrite_x : (memWrite addr v s).x = s.x := by rw [memWrite_eq]
@[simp] theorem memWrite_y : (memWrite addr v s).y = s.y := by rw [memWrite_eq]
@[simp] theorem memWrite_sp : (memWrite addr v s).sp = s.sp := by rw [memWrite_eq]
@[simp] theorem memWrite_pc : (memWrite addr v s).pc = s.pc := by rw [memWrite_eq]
@[simp] theorem memWrite_p : (memWrite addr v s).p = s.p := by rw [memWrite_eq]
@[simp] theorem memWrite_ram : (memWrite addr v s).ram = storedRam addr v s := by rw [memWrite_eq]
@[simp] theorem memWrite_rom : (memWrite addr v s).rom = s.rom := by rw [memWrite_eq]
@[simp] theorem memWrite_buslog : (memWrite addr v s).buslog = s.buslog ++ [pokeEvent addr v s] := by rw [memWrite_eq]
@[simp] theorem memWrite_cycles : (memWrite addr v s).cycles = s.cycles + 1 := by rw [memWrite_eq]
@[simp] theorem memWrite_fault : (memWrite addr v s).fault = s.fault := by rw [memWrite_eq]
@[simp] theorem memWrite_refusal : (memWrite addr v s).refusal = s.refusal := by rw [memWrite_eq]
@[simp] theorem memWrite_powerOn : (memWrite addr v s).powerOn = s.powerOn := by rw [memWrite_eq]
@[simp] theorem memWrite_cfg : (memWrite addr v s).cfg = s.cfg := by rw [memWrite_eq]
@[simp] theorem memWrite_inputs : (memWrite addr v s).inputs = s.inputs := by rw [memWrite_eq]
@[simp] theorem memWrite_ioDraws : (memWrite addr v s).ioDraws = s.ioDraws := by rw [memWrite_eq]

end

/-! ### Cycles do not see the registers -/

section
variable (s : State) (a x y sp : Byte) (pc : Word) (p : Flags)

theorem ioByte_withRegs (addr : Word) : ioByte addr (s.withRegs a x y sp pc p) = ioByte addr s := rfl

theorem peekEvent_withRegs (addr : Word) : peekEvent addr (s.withRegs a x y sp pc p) = peekEvent addr s := rfl

theorem readValue_withRegs (addr : Word) : readValue addr (s.withRegs a x y sp pc p) = readValue addr s := rfl

theorem pokeEvent_withRegs (addr : Word) (v : Byte) :
    pokeEvent addr v (s.withRegs a x y sp pc p) = pokeEvent addr v s := rfl

theorem sneakyRead_withRegs (addr : Word) : sneakyRead addr (s.withRegs a x y sp pc p) = sneakyRead addr s := rfl

theorem afterRead_withRegs (addr : Word) :
    afterRead addr (s.withRegs a x y sp pc p) = (afterRead addr s).withRegs a x y sp pc p := by
  exact congrArg State.tick (sideEffects_withRegs addr true (({ s with
    ioDraws := if readDraws addr s then s.ioDraws.tail else s.ioDraws } : State).logEvent (peekEvent addr s)) a x y sp pc p)

theorem memWrite_withRegs (addr : Word) (v : Byte) :
    memWrite addr v (s.withRegs a x y sp pc p) = (memWrite addr v s).withRegs a x y sp pc p := by
  exact congrArg State.tick (sideEffects_withRegs addr false (({ s with
    suppressDraws := if s.cfg.isHooked addr then s.suppressDraws.tail else s.suppressDraws
    ram := storedRam addr v s } : State).logEvent (pokeEvent addr v s)) a x y sp pc p)

end

/-! ### Runs of cycles -/

theorem peekEvent_isRead (addr : Word) (s : State) : (peekEvent addr s).IsRead addr := ⟨rfl, rfl⟩

theorem pokeEvent_isWrite (addr : Word) (v : Byte) (s : State) : (pokeEvent addr v s).IsWrite addr v := ⟨rfl, rfl, rfl⟩

theorem Cycles.nil (s : State) : Cycles s [] s := rfl

/-- Put a read cycle in front of a run. -/
theorem Cycles.read {s u : State} {es : List BusEvent} (addr : Word) (h : Cycles (afterRead addr s) es u) :
    Cycles s (peekEvent addr s :: es) u := ⟨rfl, h⟩

/-- Put a write cycle in front of a run. -/
theorem Cycles.write {s u : State} {es : List BusEvent} (addr : Word) (v : Byte)
    (h : Cycles (memWrite addr v s) es u) : Cycles s (pokeEvent addr v s :: es) u := ⟨rfl, h⟩

/-- One cycle, then the rest: the two cases of a run that is not empty. -/
theorem Cycles.cons_cases {s u : State} {e : BusEvent} {es : List BusEvent} (h : Cycles s (e :: es) u) :
    (e = peekEvent e.addr s ∧ Cycles (afterRead e.addr s) es u) ∨
      (e = pokeEvent e.addr e.value s ∧ Cycles (memWrite e.addr e.value s) es u) := by
  unfold Cycles at h
  split at h
  · exact .inl h
  · exact .inr h

/-- A run that is one read cycle and then the rest. -/
theorem Cycles.cons_read {s u : State} {e : BusEvent} {es : List BusEvent} (he : e = peekEvent e.addr s)
    (h : Cycles (afterRead e.addr s) es u) : Cycles s (e :: es) u := by
  have := Cycles.read e.addr h
  rwa [← he] at this

/-- A run that is one write cycle and then the rest. -/
theorem Cycles.cons_write {s u : State} {e : BusEvent} {es : List BusEvent} (he : e = pokeEvent e.addr e.value s)
    (h : Cycles (memWrite e.addr e.value s) es u) : Cycles s (e :: es) u := by
  have := Cycles.write e.addr e.value h
  rwa [← he] at this

/-- Runs compose. -/
theorem Cycles.append {es1 es2 : List BusEvent} :
    ∀ {s t u : State}, Cycles s es1 t → Cycles t es2 u → Cycles s (es1 ++ es2) u := by
  induction es1 with
  | nil => intro s t u h1 h2; cases h1; exact h2
  | cons e es ih =>
    intro s t u h1 h2
    rcases h1.cons_cases with ⟨he, h⟩ | ⟨he, h⟩
    · exact Cycles.cons_read he (ih h h2)
    · exact Cycles.cons_write he (ih h h2)

/-- A run determines the state it leaves. -/
theorem Cycles.functional {es : List BusEvent} : ∀ {s t u : State}, Cycles s es t → Cycles s es u → t = u := by
  induction es with
  | nil => intro s t u h1 h2; exact h1.trans h2.symm
  | cons e es ih =>
    intro s t u h1 h2
    unfold Cycles at h1 h2
    split at h1
    · next he => rw [he] at h2; exact ih h1.2 h2.2
    · next he => rw [he] at h2; exact ih h1.2 h2.2

/-- The registers can be changed before a run or after it. -/
theorem Cycles.withRegs {es : List BusEvent} (a x y sp : Byte) (pc : Word) (p : Flags) :
    ∀ {s u : State}, Cycles s es u → Cycles (s.withRegs a x y sp pc p) es (u.withRegs a x y sp pc p) := by
  induction es with
  | nil => intro s u h; cases h; rfl
  | cons e es ih =>
    intro s u h
    unfold Cycles at h ⊢
    split
    · next he =>
      rw [he] at h
      refine ⟨h.1, ?_⟩
      rw [afterRead_withRegs]
      exact ih h.2
    · next he =>
      rw [he] at h
      refine ⟨h.1, ?_⟩
      rw [memWrite_withRegs]
      exact ih h.2

/-- Everything a run of cycles can do: it leaves the registers, the flags, ROM, the marks, the configuration and the
boundary inputs alone, appends its own trace to the bus log and counts it. -/
theorem Cycles.frame {es : List BusEvent} : ∀ {s u : State}, Cycles s es u →
    u = { s with sw := u.sw, swlog := u.swlog, buslog := s.buslog ++ es, cycles := s.cycles + es.length,
                 ioDraws := u.ioDraws, ram := u.ram, suppressDraws := u.suppressDraws } := by
  induction es with
  | nil => intro s u h; cases h; simp
  | cons e es ih =>
    intro s u h
    rcases h.cons_cases with ⟨he, h'⟩ | ⟨he, h'⟩
    · have := ih h'
      cases u
      simp only [State.mk.injEq, afterRead_a, afterRead_x, afterRead_y, afterRead_sp, afterRead_pc, afterRead_p,
        afterRead_rom, afterRead_buslog, afterRead_cycles, afterRead_fault, afterRead_refusal, afterRead_powerOn,
        afterRead_cfg, afterRead_inputs] at this ⊢
      rw [← he] at this
      clear he
      simp only [List.append_assoc, List.singleton_append, List.length_cons] at this ⊢
      simp_all only [true_and, and_true]
      omega
    · have := ih h'
      cases u
      simp only [State.mk.injEq, memWrite_a, memWrite_x, memWrite_y, memWrite_sp, memWrite_pc, memWrite_p,
        memWrite_rom, memWrite_buslog, memWrite_cycles, memWrite_fault, memWrite_refusal, memWrite_powerOn,
        memWrite_cfg, memWrite_inputs] at this ⊢
      rw [← he] at this
      clear he
      simp only [List.append_assoc, List.singleton_append, List.length_cons] at this ⊢
      simp_all only [true_and, and_true]
      omega

/-! ### The fields a run leaves alone -/

theorem Cycles.a_eq {s u : State} {es : List BusEvent} (h : Cycles s es u) : u.a = s.a := by rw [h.frame]

theorem Cycles.x_eq {s u : State} {es : List BusEvent} (h : Cycles s es u) : u.x = s.x := by rw [h.frame]

theorem Cycles.y_eq {s u : State} {es : List BusEvent} (h : Cycles s es u) : u.y = s.y := by rw [h.frame]

theorem Cycles.sp_eq {s u : State} {es : List BusEvent} (h : Cycles s es u) : u.sp = s.sp := by rw [h.frame]

theorem Cycles.pc_eq {s u : State} {es : List BusEvent} (h : Cycles s es u) : u.pc = s.pc := by rw [h.frame]

theorem Cycles.p_eq {s u : State} {es : List BusEvent} (h : Cycles s es u) : u.p = s.p := by rw [h.frame]

theorem Cycles.rom_eq {s u : State} {es : List BusEvent} (h : Cycles s es u) : u.rom = s.rom := by rw [h.frame]

theorem Cycles.fault_eq {s u : State} {es : List BusEvent} (h : Cycles s es u) : u.fault = s.fault := by rw [h.frame]

theorem Cycles.refusal_eq {s u : State} {es : List BusEvent} (h : Cycles s es u) : u.refusal = s.refusal := by rw [h.frame]

theorem Cycles.powerOn_eq {s u : State} {es : List BusEvent} (h : Cycles s es u) : u.powerOn = s.powerOn := by rw [h.frame]

theorem Cycles.cfg_eq {s u : State} {es : List BusEvent} (h : Cycles s es u) : u.cfg = s.cfg := by rw [h.frame]

theorem Cycles.inputs_eq {s u : State} {es : List BusEvent} (h : Cycles s es u) : u.inputs = s.inputs := by rw [h.frame]

theorem Cycles.buslog_eq {s u : State} {es : List BusEvent} (h : Cycles s es u) : u.buslog = s.buslog ++ es := by
  rw [h.frame]

theorem Cycles.cycles_eq {s u : State} {es : List BusEvent} (h : Cycles s es u) : u.cycles = s.cycles + es.length := by
  rw [h.frame]

/-- A run with no write leaves RAM and the suppress draws alone. -/
theorem Cycles.ram_of_reads {es : List BusEvent} : ∀ {s u : State}, Cycles s es u → (∀ e ∈ es, e.type = .peek) →
    u.ram = s.ram ∧ u.suppressDraws = s.suppressDraws := by
  induction es with
  | nil => intro s u h _; cases h; exact ⟨rfl, rfl⟩
  | cons e es ih =>
    intro s u h hr
    unfold Cycles at h
    rw [hr e (by simp)] at h
    have := ih h.2 (fun e' he' => hr e' (by simp [he']))
    simpa using this

/-- The switch log of a run grows by entries of its own cycles. -/
theorem Cycles.swlog {es : List BusEvent} : ∀ {s u : State}, Cycles s es u →
    ∃ ls, u.swlog = s.swlog ++ ls ∧ ∀ l ∈ ls, s.cycles ≤ l.cycle ∧ l.cycle < s.cycles + es.length := by
  induction es with
  | nil => intro s u h; cases h; exact ⟨[], by simp⟩
  | cons e es ih =>
    intro s u h
    have step : ∀ t : State, t.cycles = s.cycles + 1 →
        (∃ ks, t.swlog = s.swlog ++ ks ∧ ∀ k ∈ ks, k.cycle = s.cycles) → Cycles t es u →
        ∃ ls, u.swlog = s.swlog ++ ls ∧ ∀ l ∈ ls, s.cycles ≤ l.cycle ∧ l.cycle < s.cycles + (e :: es).length := by
      rintro t hc ⟨ks, hk, hkc⟩ ht
      obtain ⟨ls, hl, hlc⟩ := ih ht
      refine ⟨ks ++ ls, by rw [hl, hk, List.append_assoc], ?_⟩
      intro l hm
      simp only [List.length_cons]
      rcases List.mem_append.1 hm with h1 | h1
      · have := hkc l h1; omega
      · have := hlc l h1; omega
    rcases h.cons_cases with ⟨_, h'⟩ | ⟨_, h'⟩
    · exact step _ (by simp) (afterRead_swlog _ _) h'
    · exact step _ (by simp) (memWrite_swlog _ _ _) h'

/-! ### Plain addresses -/

/-- A plain read gives the storage byte and has no side effect. -/
theorem PlainRead.value {s : State} {addr : Word} (h : PlainRead s addr) : readValue addr s = sneakyRead addr s := by
  have hk : (resolve s.cfg addr false s.sw).kind ≠ .slots := by
    have h' : addr.toNat < 0xC000 ∨ 0xD000 ≤ addr.toNat := h.2
    unfold resolve ioBase lcBase
    simp only
    repeat' split
    all_goals first | (exfalso; omega) | simp
  unfold readValue sneakyRead storageByte
  rw [h.1]
  cases hq : (resolve s.cfg addr false s.sw).kind <;> simp_all

/-- Outside the I/O page a read cycle leaves the switches and their log alone. -/
theorem afterRead_plain {addr : Word} (s : State) (h : addr < 0xC000 ∨ 0xD000 ≤ addr) :
    (afterRead addr s).sw = s.sw ∧ (afterRead addr s).swlog = s.swlog := by
  have hs := sideEffects_outside addr true (({ s with
    ioDraws := if readDraws addr s then s.ioDraws.tail else s.ioDraws } : State).logEvent (peekEvent addr s)) h
  exact ⟨(congrArg State.sw (congrArg State.tick hs) :), (congrArg State.swlog (congrArg State.tick hs) :)⟩

/-- Outside the I/O page a write cycle leaves the switches and their log alone. -/
theorem memWrite_plain {addr : Word} (v : Byte) (s : State) (h : addr < 0xC000 ∨ 0xD000 ≤ addr) :
    (memWrite addr v s).sw = s.sw ∧ (memWrite addr v s).swlog = s.swlog := by
  have hs := sideEffects_outside addr false (({ s with
    suppressDraws := if s.cfg.isHooked addr then s.suppressDraws.tail else s.suppressDraws
    ram := storedRam addr v s } : State).logEvent (pokeEvent addr v s)) h
  exact ⟨(congrArg State.sw (congrArg State.tick hs) :), (congrArg State.swlog (congrArg State.tick hs) :)⟩

/-- The select a read cycle leaves (20_memory.md R80): an access of the language card sets it, every other leaves it. -/
theorem afterRead_select (addr : Word) (s : State) :
    (afterRead addr s).sw.altzp = s.sw.altzp ∧
      (afterRead addr s).sw.lcReadRam =
        if s.cfg.lcPresent = true ∧ 0xC080 ≤ addr ∧ addr ≤ 0xC08F then addr.getLsbD 0 == addr.getLsbD 1
        else s.sw.lcReadRam := by
  unfold afterRead State.tick sideEffects lcAccess lcWriteEnable displayAccess displaySwitch inRange
  by_cases h : s.cfg.lcPresent = true ∧ 0xC080 ≤ addr ∧ addr ≤ 0xC08F
  · obtain ⟨h1, h2, h3⟩ := h
    simp only [h1, h2, h3, decide_true, Bool.and_self, if_true, State.logEvent, setAndNotify_eq, and_self]
    constructor <;> (repeat' split) <;> rfl
  · rw [if_neg h]
    simp only [State.logEvent, setAndNotify_eq, Bool.and_eq_true, decide_eq_true_eq]
    split
    · next h' => rw [if_neg (fun hc => h ⟨hc, h'⟩)]; exact ⟨rfl, rfl⟩
    · split
      · (repeat' split) <;> exact ⟨rfl, rfl⟩
      · simp

/-- An address is outside the I/O page, or every access of it resolves to SLOTS (20_memory.md R57). -/
theorem plain_or_slots (cfg : Config) (addr : Word) (w : Bool) (sw : Registry) :
    (addr < 0xC000 ∨ 0xD000 ≤ addr) ∨ (resolve cfg addr w sw).kind = .slots := by
  by_cases h1 : addr.toNat < 0xC000
  · exact .inl (.inl h1)
  by_cases h2 : 0xD000 ≤ addr.toNat
  · exact .inl (.inr h2)
  right
  unfold resolve ioBase lcBase
  simp only
  rw [if_neg h1, if_pos (by omega)]

end Sys2Proof.Machine
end

