-- ==== Sys2Proof/Laws/Bytes.lean ====
section
/-! SUPPORT. The byte-order and extension helpers as arithmetic, and the stack addresses. -/

namespace Sys2Proof

theorem toNat_loByte (w : Word) : (loByte w).toNat = w.toNat % 256 := by
  simp [loByte, BitVec.extractLsb'_toNat]

theorem toNat_hiByte (w : Word) : (hiByte w).toNat = w.toNat / 256 := by
  have := w.isLt
  simp [hiByte, BitVec.extractLsb'_toNat, Nat.shiftRight_eq_div_pow]
  omega

theorem toNat_wordOf (hi lo : Byte) : (wordOf hi lo).toNat = hi.toNat * 256 + lo.toNat := by
  have := lo.isLt
  unfold wordOf
  rw [BitVec.toNat_append, ← Nat.shiftLeft_add_eq_or_of_lt (by omega), Nat.shiftLeft_eq]

theorem toNat_zext16 (v : Byte) : (zext16 v).toNat = v.toNat := by
  have := v.isLt
  rw [zext16, BitVec.toNat_setWidth]
  omega

@[simp] theorem wordOf_hi_lo (w : Word) : wordOf (hiByte w) (loByte w) = w := by
  apply BitVec.eq_of_toNat_eq
  rw [toNat_wordOf, toNat_hiByte, toNat_loByte]
  omega

@[simp] theorem hiByte_wordOf (hi lo : Byte) : hiByte (wordOf hi lo) = hi := by
  apply BitVec.eq_of_toNat_eq
  have := lo.isLt
  rw [toNat_hiByte, toNat_wordOf]
  omega

@[simp] theorem loByte_wordOf (hi lo : Byte) : loByte (wordOf hi lo) = lo := by
  apply BitVec.eq_of_toNat_eq
  have := lo.isLt
  rw [toNat_loByte, toNat_wordOf]
  omega

/-- The low byte of an indexed address is the wrapped sum of the low bytes. -/
theorem loByte_indexed (w : Word) (v : Byte) : loByte (w + zext16 v) = loByte w + v := by
  apply BitVec.eq_of_toNat_eq
  rw [toNat_loByte, BitVec.toNat_add, BitVec.toNat_add, toNat_loByte, toNat_zext16]
  omega

namespace Machine

theorem toNat_stackAddr (k : Byte) : (stackAddr k).toNat = 0x100 + k.toNat := by
  have := k.isLt
  unfold stackAddr
  rw [BitVec.toNat_or, toNat_zext16, show BitVec.toNat (0x0100 : Word) = 2 ^ 8 * 1 from rfl,
    ← Nat.two_pow_add_eq_or_of_lt (by omega)]

/-- The stack never leaves page 1 (10_state.md R23). -/
theorem stackAddr_bytes (k : Byte) : hiByte (stackAddr k) = 0x01 ∧ loByte (stackAddr k) = k := by
  have := k.isLt
  refine ⟨BitVec.eq_of_toNat_eq ?_, BitVec.eq_of_toNat_eq ?_⟩
  · rw [toNat_hiByte, toNat_stackAddr]
    change _ = 1
    omega
  · rw [toNat_loByte, toNat_stackAddr]
    omega

theorem stackAddr_injective {j k : Byte} (h : stackAddr j = stackAddr k) : j = k := by
  have := congrArg BitVec.toNat h
  rw [toNat_stackAddr, toNat_stackAddr] at this
  exact BitVec.eq_of_toNat_eq (by omega)

end Machine

end Sys2Proof
end

