-- ==== Sys2Proof/Laws/Operands.lean ====
section
/-! SUPPORT. What each operand form, each stack operation and each exception sequence does, said once as the run of bus cycles
it makes (40_addressing.md R142 to R157). -/

namespace Sys2Proof.Machine

/-- One read cycle as a run. -/
theorem Cycles.read_one (addr : Word) (s : State) : Cycles s [peekEvent addr s] (afterRead addr s) :=
  Cycles.read addr (Cycles.nil _)

/-- One write cycle as a run. -/
theorem Cycles.write_one (addr : Word) (v : Byte) (s : State) : Cycles s [pokeEvent addr v s] (memWrite addr v s) :=
  Cycles.write addr v (Cycles.nil _)

theorem unfixed_eq (base : Word) (idx : Byte) :
    unfixed base idx = wordOf (hiByte base) (loByte (base + zext16 idx)) := by
  rw [loByte_indexed]; rfl

/-- The unfixed address is the effective address exactly when no page is crossed (40_addressing.md R141). -/
theorem unfixed_eq_indexed (base : Word) (idx : Byte) :
    unfixed base idx = indexed base idx ↔ hiByte (base + zext16 idx) = hiByte base := by
  rw [unfixed_eq]
  constructor
  · intro h
    have := congrArg hiByte h
    rw [hiByte_wordOf] at this
    exact this.symm
  · intro h
    rw [← h, wordOf_hi_lo]
    rfl

/-! ### The read class -/

theorem readIndexed_spec (base : Word) (idx : Byte) (s : State) :
    ∃ es, IndexedReads base idx es (readIndexed base idx s).1 ∧ Cycles s es (readIndexed base idx s).2 := by
  unfold readIndexed IndexedReads
  by_cases h : hiByte (base + zext16 idx) = hiByte base
  · have h' := (unfixed_eq_indexed base idx).2 h
    simp only [h', ne_eq, not_true, if_false, h, if_true]
    exact ⟨_, ⟨_, rfl, peekEvent_isRead _ _, rfl⟩, Cycles.read_one _ _⟩
  · have h' : ¬ unfixed base idx = indexed base idx := fun e => h ((unfixed_eq_indexed base idx).1 e)
    simp only [h', ne_eq, not_false_iff, if_true, h, if_false]
    refine ⟨_, ⟨_, _, rfl, ?_, peekEvent_isRead _ _, rfl⟩, Cycles.read _ (Cycles.read_one _ _)⟩
    rw [← unfixed_eq]
    exact peekEvent_isRead _ _

/-- Everything a read-class operand does: its run of cycles and the byte it obtains. -/
theorem readOp_spec (m : ReadMode) (s : State) :
    ∃ es, ReadCycles m s es (readOp m s).1 ∧ Cycles s es (readOp m s).2 := by
  cases m with
  | imm v => exact ⟨[], ⟨rfl, rfl⟩, Cycles.nil s⟩
  | zp p => exact ⟨_, ⟨_, rfl, peekEvent_isRead _ _, rfl⟩, Cycles.read_one _ _⟩
  | zpx p =>
    exact ⟨_, ⟨_, _, rfl, peekEvent_isRead _ _, peekEvent_isRead _ _, rfl⟩, Cycles.read _ (Cycles.read_one _ _)⟩
  | zpy p =>
    exact ⟨_, ⟨_, _, rfl, peekEvent_isRead _ _, peekEvent_isRead _ _, rfl⟩, Cycles.read _ (Cycles.read_one _ _)⟩
  | abs addr => exact ⟨_, ⟨_, rfl, peekEvent_isRead _ _, rfl⟩, Cycles.read_one _ _⟩
  | abx base => exact readIndexed_spec base s.x s
  | aby base => exact readIndexed_spec base s.y s
  | izx p =>
    exact ⟨_, ⟨_, _, _, _, rfl, peekEvent_isRead _ _, peekEvent_isRead _ _, peekEvent_isRead _ _, peekEvent_isRead _ _,
      rfl⟩, Cycles.read _ (Cycles.read _ (Cycles.read _ (Cycles.read_one _ _)))⟩
  | izy p =>
    obtain ⟨es, h1, h2⟩ := readIndexed_spec (readPointer p s).1 s.y (readPointer p s).2
    exact ⟨_, ⟨_, _, es, rfl, peekEvent_isRead _ _, peekEvent_isRead _ _, h1⟩, Cycles.read _ (Cycles.read _ h2)⟩

theorem IndexedReads.reads {base : Word} {idx : Byte} {es : List BusEvent} {v : Byte} (h : IndexedReads base idx es v) :
    ∀ e ∈ es, e.type = .peek := by
  unfold IndexedReads at h
  simp only at h
  split at h
  · obtain ⟨e, rfl, h1, _⟩ := h
    simpa using h1.1
  · obtain ⟨e1, e2, rfl, h1, h2, _⟩ := h
    simpa using ⟨h1.1, h2.1⟩

/-- A read-class operand makes read cycles only. -/
theorem ReadCycles.reads {m : ReadMode} {s : State} {es : List BusEvent} {v : Byte} (h : ReadCycles m s es v) :
    ∀ e ∈ es, e.type = .peek := by
  cases m with
  | imm k => simp [h.1]
  | zp p => obtain ⟨e, rfl, h1, _⟩ := h; simpa using h1.1
  | zpx p => obtain ⟨e1, e2, rfl, h1, h2, _⟩ := h; simpa using ⟨h1.1, h2.1⟩
  | zpy p => obtain ⟨e1, e2, rfl, h1, h2, _⟩ := h; simpa using ⟨h1.1, h2.1⟩
  | abs addr => obtain ⟨e, rfl, h1, _⟩ := h; simpa using h1.1
  | abx base => exact IndexedReads.reads h
  | aby base => exact IndexedReads.reads h
  | izx p => obtain ⟨e1, e2, e3, e4, rfl, h1, h2, h3, h4, _⟩ := h; simpa using ⟨h1.1, h2.1, h3.1, h4.1⟩
  | izy p =>
    obtain ⟨e1, e2, es', rfl, h1, h2, h3⟩ := h
    have := IndexedReads.reads h3
    simpa using ⟨h1.1, h2.1, this⟩

/-! ### The write class -/

/-- Everything the cycles before the write of a write-class operand do. -/
theorem writeAddress_spec (m : WriteMode) (s : State) :
    ∃ es, WriteCycles m s es (writeAddress m s).1 ∧ Cycles s es (writeAddress m s).2 := by
  have dummy : ∀ (base : Word) (idx : Byte) (t : State),
      IndexedDummy base idx [peekEvent (unfixed base idx) t] (indexed base idx) := fun base idx t =>
    ⟨rfl, _, rfl, by rw [indexed, ← unfixed_eq]; exact peekEvent_isRead _ _⟩
  cases m with
  | zp p => exact ⟨[], ⟨rfl, rfl⟩, Cycles.nil s⟩
  | zpx p => exact ⟨_, ⟨⟨_, rfl, peekEvent_isRead _ _⟩, rfl⟩, Cycles.read_one _ _⟩
  | zpy p => exact ⟨_, ⟨⟨_, rfl, peekEvent_isRead _ _⟩, rfl⟩, Cycles.read_one _ _⟩
  | abs addr => exact ⟨[], ⟨rfl, rfl⟩, Cycles.nil s⟩
  | abx base => exact ⟨_, dummy base s.x s, Cycles.read_one _ _⟩
  | aby base => exact ⟨_, dummy base s.y s, Cycles.read_one _ _⟩
  | izx p =>
    exact ⟨_, ⟨_, _, _, rfl, peekEvent_isRead _ _, peekEvent_isRead _ _, peekEvent_isRead _ _, rfl⟩,
      Cycles.read _ (Cycles.read _ (Cycles.read_one _ _))⟩
  | izy p =>
    exact ⟨_, ⟨_, _, _, rfl, peekEvent_isRead _ _, peekEvent_isRead _ _, dummy (readPointer p s).1 s.y (readPointer p s).2⟩,
      Cycles.read _ (Cycles.read _ (Cycles.read_one _ _))⟩

/-- Everything a write-class operand does. -/
theorem writeOp_spec (m : WriteMode) (v : Byte) (s : State) :
    ∃ es ea w, WriteCycles m s es ea ∧ w.IsWrite ea v ∧ Cycles s (es ++ [w]) (writeOp m v s) := by
  obtain ⟨es, h1, h2⟩ := writeAddress_spec m s
  exact ⟨es, _, _, h1, pokeEvent_isWrite _ _ _, h2.append (Cycles.write_one _ _ _)⟩

/-- The cycles before the write are reads. -/
theorem WriteCycles.reads {m : WriteMode} {s : State} {es : List BusEvent} {ea : Word} (h : WriteCycles m s es ea) :
    ∀ e ∈ es, e.type = .peek := by
  cases m with
  | zp p => simp [h.1]
  | zpx p => obtain ⟨⟨e, rfl, h1⟩, _⟩ := h; simpa using h1.1
  | zpy p => obtain ⟨⟨e, rfl, h1⟩, _⟩ := h; simpa using h1.1
  | abs addr => simp [h.1]
  | abx base => obtain ⟨_, e, rfl, h1⟩ := h; simpa using h1.1
  | aby base => obtain ⟨_, e, rfl, h1⟩ := h; simpa using h1.1
  | izx p => obtain ⟨e1, e2, e3, rfl, h1, h2, h3, _⟩ := h; simpa using ⟨h1.1, h2.1, h3.1⟩
  | izy p => obtain ⟨e1, e2, es', rfl, h1, h2, _, e, rfl, h3⟩ := h; simpa using ⟨h1.1, h2.1, h3.1⟩

/-! ### The RMW class -/

/-- Everything an RMW-class operand in memory does. -/
theorem rmwOp_spec (m : RmwMode) (f : Byte → Byte) (s : State) (hm : m ≠ .acc) :
    ∃ es ea, RmwCycles m f s es ea (rmwOp m f s).1 ∧ Cycles s es (rmwOp m f s).2 := by
  have tail : ∀ (ea : Word) (t : State), Cycles t
      [peekEvent ea t, pokeEvent ea (readValue ea t) (afterRead ea t),
        pokeEvent ea (f (readValue ea t)) (memWrite ea (readValue ea t) (afterRead ea t))] (modify ea f t).2 :=
    fun ea t => Cycles.read _ (Cycles.write _ _ (Cycles.write_one _ _ _))
  cases m with
  | acc => exact absurd rfl hm
  | zp p =>
    exact ⟨_, _, ⟨[], _, _, _, rfl, peekEvent_isRead _ _, rfl, pokeEvent_isWrite _ _ _, pokeEvent_isWrite _ _ _, rfl, rfl⟩,
      tail _ _⟩
  | zpx p =>
    exact ⟨_, _, ⟨[_], _, _, _, rfl, peekEvent_isRead _ _, rfl, pokeEvent_isWrite _ _ _, pokeEvent_isWrite _ _ _,
      ⟨_, rfl, peekEvent_isRead _ _⟩, rfl⟩, Cycles.read _ (tail _ _)⟩
  | abs addr =>
    exact ⟨_, _, ⟨[], _, _, _, rfl, peekEvent_isRead _ _, rfl, pokeEvent_isWrite _ _ _, pokeEvent_isWrite _ _ _, rfl, rfl⟩,
      tail _ _⟩
  | abx base =>
    exact ⟨_, _, ⟨[_], _, _, _, rfl, peekEvent_isRead _ _, rfl, pokeEvent_isWrite _ _ _, pokeEvent_isWrite _ _ _,
      rfl, _, rfl, by rw [indexed, ← unfixed_eq]; exact peekEvent_isRead _ _⟩, Cycles.read _ (tail _ _)⟩

/-! ### Cycles made after a register has changed -/

/-- A run from a state with another S is the run from the state, with that S. -/
theorem Cycles.setSp {s u : State} {es : List BusEvent} (sp : Byte) (h : Cycles s es u) :
    Cycles (s.setSp sp) es (u.setSp sp) := by
  have := h.withRegs s.a s.x s.y sp s.pc s.p
  have hu := h.frame
  have e : u.withRegs s.a s.x s.y sp s.pc s.p = u.setSp sp := by rw [hu]; rfl
  rw [e] at this
  exact this

/-- A run from a state with another PC is the run from the state, with that PC. -/
theorem Cycles.setPc {s u : State} {es : List BusEvent} (pc : Word) (h : Cycles s es u) :
    Cycles (s.setPc pc) es (u.setPc pc) := by
  have := h.withRegs s.a s.x s.y s.sp pc s.p
  have hu := h.frame
  have e : u.withRegs s.a s.x s.y s.sp pc s.p = u.setPc pc := by rw [hu]; rfl
  rw [e] at this
  exact this

/-- A run from a state with other flags is the run from the state, with those flags. -/
theorem Cycles.setFlags {s u : State} {es : List BusEvent} (p : Flags) (h : Cycles s es u) :
    Cycles (s.setFlags p) es (u.setFlags p) := by
  have := h.withRegs s.a s.x s.y s.sp s.pc p
  have hu := h.frame
  have e : u.withRegs s.a s.x s.y s.sp s.pc p = u.setFlags p := by rw [hu]; rfl
  rw [e] at this
  exact this

/-- A read cycle does not see S. -/
theorem afterRead_setSp (addr : Word) (s : State) (sp : Byte) :
    afterRead addr (s.setSp sp) = (afterRead addr s).setSp sp :=
  (Cycles.read_one addr (s.setSp sp)).functional ((Cycles.read_one addr s).setSp sp)

theorem afterRead_setPc (addr : Word) (s : State) (pc : Word) :
    afterRead addr (s.setPc pc) = (afterRead addr s).setPc pc :=
  (Cycles.read_one addr (s.setPc pc)).functional ((Cycles.read_one addr s).setPc pc)

theorem afterRead_setFlags (addr : Word) (s : State) (p : Flags) :
    afterRead addr (s.setFlags p) = (afterRead addr s).setFlags p :=
  (Cycles.read_one addr (s.setFlags p)).functional ((Cycles.read_one addr s).setFlags p)

theorem memWrite_setSp (addr : Word) (v : Byte) (s : State) (sp : Byte) :
    memWrite addr v (s.setSp sp) = (memWrite addr v s).setSp sp :=
  (Cycles.write_one addr v (s.setSp sp)).functional ((Cycles.write_one addr v s).setSp sp)

theorem memWrite_setPc (addr : Word) (v : Byte) (s : State) (pc : Word) :
    memWrite addr v (s.setPc pc) = (memWrite addr v s).setPc pc :=
  (Cycles.write_one addr v (s.setPc pc)).functional ((Cycles.write_one addr v s).setPc pc)

theorem readValue_setSp (addr : Word) (s : State) (sp : Byte) : readValue addr (s.setSp sp) = readValue addr s := rfl

theorem readValue_setPc (addr : Word) (s : State) (pc : Word) : readValue addr (s.setPc pc) = readValue addr s := rfl

theorem readValue_setFlags (addr : Word) (s : State) (p : Flags) : readValue addr (s.setFlags p) = readValue addr s := rfl

/-! ### Stack and exception sequences -/

/-- `push`: one write cycle, then S one lower. -/
theorem push_spec (v : Byte) (s : State) :
    ∃ w u, w.IsWrite (stackAddr s.sp) v ∧ Cycles s [w] u ∧ push v s = { u with sp := s.sp - 1 } :=
  ⟨_, _, pokeEvent_isWrite _ _ _, Cycles.write_one _ _ _, rfl⟩

/-- `pull`: one read cycle above S, which goes one higher. -/
theorem pull_spec (s : State) :
    ∃ e u, e.IsRead (stackAddr (s.sp + 1)) ∧ Cycles s [e] u ∧ pull s = (e.value, { u with sp := s.sp + 1 }) := by
  refine ⟨_, _, peekEvent_isRead _ _, Cycles.read_one _ _, ?_⟩
  unfold pull memRead
  rw [afterRead_setSp, readValue_setSp]
  rfl

/-- `enter`: the five cycles of an exception entry, then S three lower, I set and PC the vector (60_exceptions.md R313). -/
theorem enter_spec (vector pushedPc : Word) (b : Bool) (s : State) :
    ∃ es target u, EntryCycles vector pushedPc (packP b s.p) s.sp es target ∧ Cycles s es u ∧
      enter vector pushedPc b s = { u with pc := target, sp := s.sp - 3, p := { s.p with i := true } } := by
  have h1 : s.sp - 1 - 1 = s.sp - 2 := by rw [BitVec.sub_sub]; rfl
  have h2 : s.sp - 2 - 1 = s.sp - 3 := by rw [BitVec.sub_sub]; rfl
  obtain ⟨u1, e1⟩ : ∃ u1, u1 = memWrite (stackAddr s.sp) (hiByte pushedPc) s := ⟨_, rfl⟩
  obtain ⟨u2, e2⟩ : ∃ u2, u2 = memWrite (stackAddr (s.sp - 1)) (loByte pushedPc) u1 := ⟨_, rfl⟩
  obtain ⟨u3, e3⟩ : ∃ u3, u3 = memWrite (stackAddr (s.sp - 2)) (packP b s.p) u2 := ⟨_, rfl⟩
  obtain ⟨u4, e4⟩ : ∃ u4, u4 = afterRead vector u3 := ⟨_, rfl⟩
  obtain ⟨u5, e5⟩ : ∃ u5, u5 = afterRead (vector + 1) u4 := ⟨_, rfl⟩
  have c : Cycles s [pokeEvent (stackAddr s.sp) (hiByte pushedPc) s, pokeEvent (stackAddr (s.sp - 1)) (loByte pushedPc) u1,
      pokeEvent (stackAddr (s.sp - 2)) (packP b s.p) u2, peekEvent vector u3, peekEvent (vector + 1) u4] u5 := by
    subst e1 e2 e3 e4 e5
    exact Cycles.write _ _ (Cycles.write _ _ (Cycles.write _ _ (Cycles.read _ (Cycles.read_one _ _))))
  refine ⟨_, wordOf (readValue (vector + 1) u4) (readValue vector u3), u5, ⟨_, _, _, _, _, rfl, pokeEvent_isWrite _ _ _,
    pokeEvent_isWrite _ _ _, pokeEvent_isWrite _ _ _, peekEvent_isRead _ _, peekEvent_isRead _ _, rfl⟩, c, ?_⟩
  have p1 : u1.p = s.p := by rw [e1, memWrite_p]
  have p2 : u2.p = s.p := by rw [e2, memWrite_p, p1]
  have p3 : u3.p = s.p := by rw [e3, memWrite_p, p2]
  unfold enter jumpThrough saveContext push
  simp only [memRead, memWrite_setSp, afterRead_setSp, afterRead_setFlags, readValue_setSp, readValue_setFlags,
    setSp_sp, setSp_p, h1, h2, ← e1, ← e2, p2, p3, ← e3, ← e4, ← e5]
  rfl

/-- A fake push: one read cycle at the stack, then S one lower. -/
theorem fakePush_eq (s : State) : fakePush s = { afterRead (stackAddr s.sp) s with sp := s.sp - 1 } := rfl

end Sys2Proof.Machine
end

