-- ==== Sys2Proof/Laws/Run.lean ====
section
/-! SUPPORT. A run of bus cycles between which registers change. Every instruction, entry and reset sequence is one
(`exec_run`), so what a run keeps and what it logs is said here once for all of them. -/

namespace Sys2Proof.Machine

/-- `t` is what the bus cycles `es` leave of `s`, up to the values of the registers and flags. -/
def Run (s : State) (es : List BusEvent) (t : State) : Prop :=
  ∃ u, Cycles s es u ∧ t = u.withRegs t.a t.x t.y t.sp t.pc t.p

theorem Run.refl (s : State) : Run s [] s := ⟨s, Cycles.nil s, rfl⟩

theorem Run.read (addr : Word) (s : State) : Run s [peekEvent addr s] (afterRead addr s) :=
  ⟨_, Cycles.read_one addr s, rfl⟩

theorem Run.write (addr : Word) (v : Byte) (s : State) : Run s [pokeEvent addr v s] (memWrite addr v s) :=
  ⟨_, Cycles.write_one addr v s, rfl⟩

/-- A run with other registers at its end. -/
theorem Run.withRegs {s t : State} {es : List BusEvent} (h : Run s es t) (a x y sp : Byte) (pc : Word) (p : Flags) :
    Run s es (t.withRegs a x y sp pc p) := by
  obtain ⟨u, h1, h2⟩ := h
  exact ⟨u, h1, by rw [h2]; rfl⟩

theorem Run.setA {s t : State} {es : List BusEvent} (h : Run s es t) (v : Byte) : Run s es (t.setA v) :=
  h.withRegs v t.x t.y t.sp t.pc t.p

theorem Run.setX {s t : State} {es : List BusEvent} (h : Run s es t) (v : Byte) : Run s es (t.setX v) :=
  h.withRegs t.a v t.y t.sp t.pc t.p

theorem Run.setY {s t : State} {es : List BusEvent} (h : Run s es t) (v : Byte) : Run s es (t.setY v) :=
  h.withRegs t.a t.x v t.sp t.pc t.p

theorem Run.setSp {s t : State} {es : List BusEvent} (h : Run s es t) (v : Byte) : Run s es (t.setSp v) :=
  h.withRegs t.a t.x t.y v t.pc t.p

theorem Run.setPc {s t : State} {es : List BusEvent} (h : Run s es t) (v : Word) : Run s es (t.setPc v) :=
  h.withRegs t.a t.x t.y t.sp v t.p

theorem Run.setFlags {s t : State} {es : List BusEvent} (h : Run s es t) (p : Flags) : Run s es (t.setFlags p) :=
  h.withRegs t.a t.x t.y t.sp t.pc p

theorem Run.setNZ {s t : State} {es : List BusEvent} (h : Run s es t) (v : Byte) : Run s es (t.setNZ v) :=
  h.setFlags _

/-- Runs compose. -/
theorem Run.trans {s t u : State} {es es' : List BusEvent} (h : Run s es t) (h' : Run t es' u) : Run s (es ++ es') u := by
  obtain ⟨v, h1, h2⟩ := h
  obtain ⟨w, h3, h4⟩ := h'
  have h5 := h3.withRegs v.a v.x v.y v.sp v.pc v.p
  have e : t.withRegs v.a v.x v.y v.sp v.pc v.p = v := by rw [h2]; rfl
  rw [e] at h5
  exact ⟨_, h1.append h5, by rw [h4]; rfl⟩

theorem Cycles.run {s u : State} {es : List BusEvent} (h : Cycles s es u) : Run s es u := ⟨u, h, rfl⟩

/-! ### What a run keeps -/

section
variable {s t : State} {es : List BusEvent} (h : Run s es t)
include h

theorem Run.rom : t.rom = s.rom := by obtain ⟨u, h1, h2⟩ := h; rw [h2]; exact h1.rom_eq
theorem Run.cfg : t.cfg = s.cfg := by obtain ⟨u, h1, h2⟩ := h; rw [h2]; exact h1.cfg_eq
theorem Run.fault : t.fault = s.fault := by obtain ⟨u, h1, h2⟩ := h; rw [h2]; exact h1.fault_eq
theorem Run.refusal : t.refusal = s.refusal := by obtain ⟨u, h1, h2⟩ := h; rw [h2]; exact h1.refusal_eq
theorem Run.powerOn : t.powerOn = s.powerOn := by obtain ⟨u, h1, h2⟩ := h; rw [h2]; exact h1.powerOn_eq
theorem Run.inputs : t.inputs = s.inputs := by obtain ⟨u, h1, h2⟩ := h; rw [h2]; exact h1.inputs_eq
theorem Run.buslog : t.buslog = s.buslog ++ es := by obtain ⟨u, h1, h2⟩ := h; rw [h2]; exact h1.buslog_eq
theorem Run.cycles : t.cycles = s.cycles + es.length := by obtain ⟨u, h1, h2⟩ := h; rw [h2]; exact h1.cycles_eq

theorem Run.ram_of_reads (hr : ∀ e ∈ es, e.type = .peek) : t.ram = s.ram := by
  obtain ⟨u, h1, h2⟩ := h
  rw [h2]
  exact (h1.ram_of_reads hr).1

end

/-! ### Every instruction is a run -/

theorem readOp_run (m : ReadMode) (s : State) : ∃ es, (∀ e ∈ es, e.type = .peek) ∧ Run s es (readOp m s).2 := by
  obtain ⟨es, h1, h2⟩ := readOp_spec m s
  exact ⟨es, h1.reads, h2.run⟩

theorem rmwOp_run (m : RmwMode) (f : Byte → Byte) (s : State) :
    ∃ es, (m = .acc → ∀ e ∈ es, e.type = .peek) ∧ Run s es (rmwOp m f s).2 := by
  by_cases hm : m = .acc
  · subst hm
    exact ⟨_, fun _ => by simp [peekEvent], (Run.read s.pc s).setA _⟩
  · obtain ⟨es, ea, h1, h2⟩ := rmwOp_spec m f s hm
    exact ⟨es, fun e => absurd e hm, h2.run⟩

theorem push_run (v : Byte) (s : State) : ∃ es, Run s es (push v s) := ⟨_, (Run.write _ _ _).setSp _⟩

theorem fetch_run (s : State) : Run s [peekEvent s.pc s] (fetch s).2 := (Run.read _ _).setPc _

theorem pull_run (s : State) : ∃ es, (∀ e ∈ es, e.type = .peek) ∧ Run s es (pull s).2 := by
  refine ⟨_, ?_, ((Run.refl s).setSp (s.sp + 1)).trans (Run.read _ _)⟩
  simp [peekEvent]

theorem jumpThrough_run (vector : Word) (s : State) :
    ∃ es, (∀ e ∈ es, e.type = .peek) ∧ es.length = 2 ∧ Run s es (jumpThrough vector s) :=
  ⟨_, by simp [peekEvent], rfl, ((Run.read vector s).trans (Run.read (vector + 1) _)).setPc _⟩

theorem enter_run (vector pushedPc : Word) (b : Bool) (s : State) :
    ∃ es, es.length = 5 ∧ Run s es (enter vector pushedPc b s) := by
  obtain ⟨es, target, u, h1, h2, h3⟩ := enter_spec vector pushedPc b s
  obtain ⟨_, _, _, _, _, rfl, _⟩ := h1
  exact ⟨_, rfl, u, h2, by rw [h3]; rfl⟩

theorem breakEntry_run (s : State) : ∃ es, es.length = 6 ∧ Run s es (breakEntry s) := by
  obtain ⟨es, hl, h⟩ := enter_run irqVector (fetch s).2.pc true (fetch s).2
  exact ⟨_, by rw [List.length_append, hl]; rfl, (fetch_run s).trans h⟩

theorem irqEntry_run (s : State) : ∃ es, es.length = 7 ∧ Run s es (irqEntry s) := by
  obtain ⟨es, hl, h⟩ := enter_run irqVector s.pc false (dummyRead s.pc (dummyRead s.pc s))
  exact ⟨_, by rw [List.length_append, hl]; rfl, ((Run.read s.pc s).trans (Run.read s.pc _)).trans h⟩

theorem leave_run (s : State) : ∃ es, (∀ e ∈ es, e.type = .peek) ∧ Run s es (leave s) := by
  obtain ⟨e1, r1, h1⟩ := pull_run s
  obtain ⟨e2, r2, h2⟩ := pull_run ((pull s).2.setFlags (unpackP (pull s).1))
  obtain ⟨e3, r3, h3⟩ := pull_run (pull ((pull s).2.setFlags (unpackP (pull s).1))).2
  refine ⟨_, ?_, (((h1.setFlags _).trans h2).trans h3).setPc _⟩
  intro e he
  rcases List.mem_append.1 he with he | he
  · rcases List.mem_append.1 he with he | he
    · exact r1 e he
    · exact r2 e he
  · exact r3 e he

theorem branchIf_run (cond : Bool) (d : Byte) (s : State) :
    ∃ es, (∀ e ∈ es, e.type = .peek) ∧ Run s es (branchIf cond d s) := by
  unfold branchIf
  split
  · dsimp only
    split
    · exact ⟨_, by simp [peekEvent], ((Run.read _ _).trans (Run.read _ _)).setPc _⟩
    · exact ⟨_, by simp [peekEvent], (Run.read _ _).setPc _⟩
  · exact ⟨[], by simp, Run.refl s⟩

theorem impliedCycle_run (s : State) : Run s [peekEvent s.pc s] (impliedCycle s) := Run.read _ _

end Sys2Proof.Machine
end

