-- ==== Sys2Proof/Laws/Step.lean ====
section
/-! SUPPORT. Inversion of `exec`: every instruction answers a next state that is a run of bus cycles. -/

namespace Sys2Proof.Machine

/-- What every meaning is: a next state, reached by a run of bus cycles. -/
def NextByRun (o : Host.Outcome State Fault Refusal) (s : State) : Prop := ∃ es t, o = .next t ∧ Run s es t

theorem NextByRun.intro {s t : State} {es : List BusEvent} (h : Run s es t) : NextByRun (.next t) s := ⟨es, t, rfl, h⟩

theorem readThen_run {s t : State} (m : ReadMode) (h : ∀ es, Run s es (readOp m s).2 → Run s es t) :
    NextByRun (.next t) s := by
  obtain ⟨es, _, hr⟩ := readOp_run m s
  exact ⟨es, t, rfl, h es hr⟩

theorem loadA_run (m : ReadMode) (s : State) : NextByRun (.next (loadA m s)) s :=
  readThen_run m fun _ h => (h.setA _).setNZ _

theorem loadX_run (m : ReadMode) (s : State) : NextByRun (.next (loadX m s)) s :=
  readThen_run m fun _ h => (h.setX _).setNZ _

theorem loadY_run (m : ReadMode) (s : State) : NextByRun (.next (loadY m s)) s :=
  readThen_run m fun _ h => (h.setY _).setNZ _

theorem addToA_run (m : ReadMode) (s : State) : NextByRun (.next (addToA m s)) s :=
  readThen_run m fun _ h => (h.setA _).setFlags _

theorem subtractFromA_run (m : ReadMode) (s : State) : NextByRun (.next (subtractFromA m s)) s :=
  readThen_run m fun _ h => (h.setA _).setFlags _

theorem combineA_run (m : ReadMode) (op : Byte → Byte → Byte) (s : State) : NextByRun (.next (combineA m op s)) s :=
  readThen_run m fun _ h => (h.setA _).setNZ _

theorem compareWith_run (r : Byte) (m : ReadMode) (s : State) : NextByRun (.next (compareWith r m s)) s :=
  readThen_run m fun _ h => h.setFlags _

theorem testBits_run (m : ReadMode) (s : State) : NextByRun (.next (testBits m s)) s :=
  readThen_run m fun _ h => h.setFlags _

theorem writeOp_run (m : WriteMode) (v : Byte) (s : State) : NextByRun (.next (writeOp m v s)) s := by
  obtain ⟨_, _, _, _, _, h⟩ := writeOp_spec m v s
  exact .intro h.run

theorem stepMemory_run (m : RmwMode) (f : Byte → Byte) (s : State) : NextByRun (.next (stepMemory m f s)) s := by
  obtain ⟨_, _, h⟩ := rmwOp_run m f s
  exact .intro (h.setNZ _)

theorem shiftOp_run (m : RmwMode) (f : Byte → Byte) (bit : Nat) (s : State) : NextByRun (.next (shiftOp m f bit s)) s := by
  obtain ⟨_, _, h⟩ := rmwOp_run m f s
  exact .intro (h.setFlags _)

theorem branch_run (cond : Bool) (d : Byte) (s : State) : NextByRun (.next (branchIf cond d s)) s := by
  obtain ⟨_, _, h⟩ := branchIf_run cond d s
  exact .intro h

theorem jumpIndirect_run (ptr : Word) (s : State) : NextByRun (.next (jumpIndirect ptr s)) s :=
  .intro (((Run.read _ _).trans (Run.read _ _)).setPc _)

theorem callSubroutine_run (w : Word) (s : State) : NextByRun (.next (callSubroutine w s)) s := by
  obtain ⟨_, h1⟩ := push_run (hiByte s.pc) (dummyRead (stackAddr s.sp) s)
  obtain ⟨_, h2⟩ := push_run (loByte s.pc) (push (hiByte s.pc) (dummyRead (stackAddr s.sp) s))
  exact .intro (((((Run.read (stackAddr s.sp) s).trans h1).trans h2).trans (Run.read _ _)).setPc _)

theorem pulled_run (s : State) : ∃ es, Run s es (pullByte s).2 := by
  obtain ⟨_, _, h⟩ := pull_run (dummyRead (stackAddr s.sp) (impliedCycle s))
  exact ⟨_, ((impliedCycle_run s).trans (Run.read (stackAddr s.sp) _)).trans h⟩

theorem pullA_run (s : State) : NextByRun (.next (pullA s)) s := by
  obtain ⟨_, h⟩ := pulled_run s
  exact .intro ((h.setA _).setNZ _)

theorem pullFlags_run (s : State) : NextByRun (.next (pullFlags s)) s := by
  obtain ⟨_, h⟩ := pulled_run s
  exact .intro (h.setFlags _)

theorem returnFromSubroutine_run (s : State) : NextByRun (.next (returnFromSubroutine s)) s := by
  obtain ⟨_, _, h1⟩ := pull_run (dummyRead (stackAddr s.sp) (impliedCycle s))
  obtain ⟨_, _, h2⟩ := pull_run (pull (dummyRead (stackAddr s.sp) (impliedCycle s))).2
  exact .intro (((((impliedCycle_run s).trans (Run.read (stackAddr s.sp) _)).trans (h1.trans h2)).trans
    (Run.read _ _)).setPc _)

theorem returnFromInterrupt_run (s : State) : NextByRun (.next (returnFromInterrupt s)) s := by
  obtain ⟨_, _, h⟩ := leave_run (dummyRead (stackAddr s.sp) (impliedCycle s))
  exact .intro (((impliedCycle_run s).trans (Run.read (stackAddr s.sp) _)).trans h)

theorem pushAfter_run (v : Byte) (s : State) : NextByRun (.next (push v (impliedCycle s))) s := by
  obtain ⟨_, h⟩ := push_run v (impliedCycle s)
  exact .intro ((impliedCycle_run s).trans h)

theorem break_run (s : State) : NextByRun (.next (breakEntry s)) s := by
  obtain ⟨_, _, h⟩ := breakEntry_run s
  exact .intro h

theorem implied_run {s t : State} (h : Run s [peekEvent s.pc s] (impliedCycle s) → Run s [peekEvent s.pc s] t) :
    NextByRun (.next t) s := .intro (h (impliedCycle_run s))

/-- Every instruction completes, in every state, by a run of bus cycles. -/
theorem exec_run (i : Instr) (s : State) : NextByRun (exec i s) s := by
  cases i with
  | brk => exact break_run s
  | oraIzx _ => exact combineA_run _ _ s
  | ill02 => exact break_run s
  | ill03 => exact break_run s
  | ill04 => exact break_run s
  | oraZp _ => exact combineA_run _ _ s
  | aslZp _ => exact shiftOp_run _ _ _ s
  | ill07 => exact break_run s
  | php => exact pushAfter_run _ s
  | oraImm _ => exact combineA_run _ _ s
  | aslAcc => exact shiftOp_run _ _ _ s
  | ill0B => exact break_run s
  | ill0C => exact break_run s
  | oraAbs _ => exact combineA_run _ _ s
  | aslAbs _ => exact shiftOp_run _ _ _ s
  | ill0F => exact break_run s
  | bpl _ => exact branch_run _ _ s
  | oraIzy _ => exact combineA_run _ _ s
  | ill12 => exact break_run s
  | ill13 => exact break_run s
  | ill14 => exact break_run s
  | oraZpx _ => exact combineA_run _ _ s
  | aslZpx _ => exact shiftOp_run _ _ _ s
  | ill17 => exact break_run s
  | clc => exact implied_run fun h => h.setFlags _
  | oraAby _ => exact combineA_run _ _ s
  | ill1A => exact break_run s
  | ill1B => exact break_run s
  | ill1C => exact break_run s
  | oraAbx _ => exact combineA_run _ _ s
  | aslAbx _ => exact shiftOp_run _ _ _ s
  | ill1F => exact break_run s
  | jsr _ => exact callSubroutine_run _ s
  | andIzx _ => exact combineA_run _ _ s
  | ill22 => exact break_run s
  | ill23 => exact break_run s
  | bitZp _ => exact testBits_run _ s
  | andZp _ => exact combineA_run _ _ s
  | rolZp _ => exact shiftOp_run _ _ _ s
  | ill27 => exact break_run s
  | plp => exact pullFlags_run s
  | andImm _ => exact combineA_run _ _ s
  | rolAcc => exact shiftOp_run _ _ _ s
  | ill2B => exact break_run s
  | bitAbs _ => exact testBits_run _ s
  | andAbs _ => exact combineA_run _ _ s
  | rolAbs _ => exact shiftOp_run _ _ _ s
  | ill2F => exact break_run s
  | bmi _ => exact branch_run _ _ s
  | andIzy _ => exact combineA_run _ _ s
  | ill32 => exact break_run s
  | ill33 => exact break_run s
  | ill34 => exact break_run s
  | andZpx _ => exact combineA_run _ _ s
  | rolZpx _ => exact shiftOp_run _ _ _ s
  | ill37 => exact break_run s
  | sec => exact implied_run fun h => h.setFlags _
  | andAby _ => exact combineA_run _ _ s
  | ill3A => exact break_run s
  | ill3B => exact break_run s
  | ill3C => exact break_run s
  | andAbx _ => exact combineA_run _ _ s
  | rolAbx _ => exact shiftOp_run _ _ _ s
  | ill3F => exact break_run s
  | rti => exact returnFromInterrupt_run s
  | eorIzx _ => exact combineA_run _ _ s
  | ill42 => exact break_run s
  | ill43 => exact break_run s
  | ill44 => exact break_run s
  | eorZp _ => exact combineA_run _ _ s
  | lsrZp _ => exact shiftOp_run _ _ _ s
  | ill47 => exact break_run s
  | pha => exact pushAfter_run _ s
  | eorImm _ => exact combineA_run _ _ s
  | lsrAcc => exact shiftOp_run _ _ _ s
  | ill4B => exact break_run s
  | jmpAbs _ => exact .intro ((Run.refl s).setPc _)
  | eorAbs _ => exact combineA_run _ _ s
  | lsrAbs _ => exact shiftOp_run _ _ _ s
  | ill4F => exact break_run s
  | bvc _ => exact branch_run _ _ s
  | eorIzy _ => exact combineA_run _ _ s
  | ill52 => exact break_run s
  | ill53 => exact break_run s
  | ill54 => exact break_run s
  | eorZpx _ => exact combineA_run _ _ s
  | lsrZpx _ => exact shiftOp_run _ _ _ s
  | ill57 => exact break_run s
  | cli => exact implied_run fun h => h.setFlags _
  | eorAby _ => exact combineA_run _ _ s
  | ill5A => exact break_run s
  | ill5B => exact break_run s
  | ill5C => exact break_run s
  | eorAbx _ => exact combineA_run _ _ s
  | lsrAbx _ => exact shiftOp_run _ _ _ s
  | ill5F => exact break_run s
  | rts => exact returnFromSubroutine_run s
  | adcIzx _ => exact addToA_run _ s
  | ill62 => exact break_run s
  | ill63 => exact break_run s
  | ill64 => exact break_run s
  | adcZp _ => exact addToA_run _ s
  | rorZp _ => exact shiftOp_run _ _ _ s
  | ill67 => exact break_run s
  | pla => exact pullA_run s
  | adcImm _ => exact addToA_run _ s
  | rorAcc => exact shiftOp_run _ _ _ s
  | ill6B => exact break_run s
  | jmpInd _ => exact jumpIndirect_run _ s
  | adcAbs _ => exact addToA_run _ s
  | rorAbs _ => exact shiftOp_run _ _ _ s
  | ill6F => exact break_run s
  | bvs _ => exact branch_run _ _ s
  | adcIzy _ => exact addToA_run _ s
  | ill72 => exact break_run s
  | ill73 => exact break_run s
  | ill74 => exact break_run s
  | adcZpx _ => exact addToA_run _ s
  | rorZpx _ => exact shiftOp_run _ _ _ s
  | ill77 => exact break_run s
  | sei => exact implied_run fun h => h.setFlags _
  | adcAby _ => exact addToA_run _ s
  | ill7A => exact break_run s
  | ill7B => exact break_run s
  | ill7C => exact break_run s
  | adcAbx _ => exact addToA_run _ s
  | rorAbx _ => exact shiftOp_run _ _ _ s
  | ill7F => exact break_run s
  | ill80 => exact break_run s
  | staIzx _ => exact writeOp_run _ _ s
  | ill82 => exact break_run s
  | ill83 => exact break_run s
  | styZp _ => exact writeOp_run _ _ s
  | staZp _ => exact writeOp_run _ _ s
  | stxZp _ => exact writeOp_run _ _ s
  | ill87 => exact break_run s
  | dey => exact implied_run fun h => (h.setY _).setNZ _
  | ill89 => exact break_run s
  | txa => exact implied_run fun h => (h.setA _).setNZ _
  | ill8B => exact break_run s
  | styAbs _ => exact writeOp_run _ _ s
  | staAbs _ => exact writeOp_run _ _ s
  | stxAbs _ => exact writeOp_run _ _ s
  | ill8F => exact break_run s
  | bcc _ => exact branch_run _ _ s
  | staIzy _ => exact writeOp_run _ _ s
  | ill92 => exact break_run s
  | ill93 => exact break_run s
  | styZpx _ => exact writeOp_run _ _ s
  | staZpx _ => exact writeOp_run _ _ s
  | stxZpy _ => exact writeOp_run _ _ s
  | ill97 => exact break_run s
  | tya => exact implied_run fun h => (h.setA _).setNZ _
  | staAby _ => exact writeOp_run _ _ s
  | txs => exact implied_run fun h => h.setSp _
  | ill9B => exact break_run s
  | ill9C => exact break_run s
  | staAbx _ => exact writeOp_run _ _ s
  | ill9E => exact break_run s
  | ill9F => exact break_run s
  | ldyImm _ => exact loadY_run _ s
  | ldaIzx _ => exact loadA_run _ s
  | ldxImm _ => exact loadX_run _ s
  | illA3 => exact break_run s
  | ldyZp _ => exact loadY_run _ s
  | ldaZp _ => exact loadA_run _ s
  | ldxZp _ => exact loadX_run _ s
  | illA7 => exact break_run s
  | tay => exact implied_run fun h => (h.setY _).setNZ _
  | ldaImm _ => exact loadA_run _ s
  | tax => exact implied_run fun h => (h.setX _).setNZ _
  | illAB => exact break_run s
  | ldyAbs _ => exact loadY_run _ s
  | ldaAbs _ => exact loadA_run _ s
  | ldxAbs _ => exact loadX_run _ s
  | illAF => exact break_run s
  | bcs _ => exact branch_run _ _ s
  | ldaIzy _ => exact loadA_run _ s
  | illB2 => exact break_run s
  | illB3 => exact break_run s
  | ldyZpx _ => exact loadY_run _ s
  | ldaZpx _ => exact loadA_run _ s
  | ldxZpy _ => exact loadX_run _ s
  | illB7 => exact break_run s
  | clv => exact implied_run fun h => h.setFlags _
  | ldaAby _ => exact loadA_run _ s
  | tsx => exact implied_run fun h => (h.setX _).setNZ _
  | illBB => exact break_run s
  | ldyAbx _ => exact loadY_run _ s
  | ldaAbx _ => exact loadA_run _ s
  | ldxAby _ => exact loadX_run _ s
  | illBF => exact break_run s
  | cpyImm _ => exact compareWith_run _ _ s
  | cmpIzx _ => exact compareWith_run _ _ s
  | illC2 => exact break_run s
  | illC3 => exact break_run s
  | cpyZp _ => exact compareWith_run _ _ s
  | cmpZp _ => exact compareWith_run _ _ s
  | decZp _ => exact stepMemory_run _ _ s
  | illC7 => exact break_run s
  | iny => exact implied_run fun h => (h.setY _).setNZ _
  | cmpImm _ => exact compareWith_run _ _ s
  | dex => exact implied_run fun h => (h.setX _).setNZ _
  | illCB => exact break_run s
  | cpyAbs _ => exact compareWith_run _ _ s
  | cmpAbs _ => exact compareWith_run _ _ s
  | decAbs _ => exact stepMemory_run _ _ s
  | illCF => exact break_run s
  | bne _ => exact branch_run _ _ s
  | cmpIzy _ => exact compareWith_run _ _ s
  | illD2 => exact break_run s
  | illD3 => exact break_run s
  | illD4 => exact break_run s
  | cmpZpx _ => exact compareWith_run _ _ s
  | decZpx _ => exact stepMemory_run _ _ s
  | illD7 => exact break_run s
  | cld => exact implied_run fun h => h.setFlags _
  | cmpAby _ => exact compareWith_run _ _ s
  | illDA => exact break_run s
  | illDB => exact break_run s
  | illDC => exact break_run s
  | cmpAbx _ => exact compareWith_run _ _ s
  | decAbx _ => exact stepMemory_run _ _ s
  | illDF => exact break_run s
  | cpxImm _ => exact compareWith_run _ _ s
  | sbcIzx _ => exact subtractFromA_run _ s
  | illE2 => exact break_run s
  | illE3 => exact break_run s
  | cpxZp _ => exact compareWith_run _ _ s
  | sbcZp _ => exact subtractFromA_run _ s
  | incZp _ => exact stepMemory_run _ _ s
  | illE7 => exact break_run s
  | inx => exact implied_run fun h => (h.setX _).setNZ _
  | sbcImm _ => exact subtractFromA_run _ s
  | nop => exact implied_run fun h => h
  | illEB => exact break_run s
  | cpxAbs _ => exact compareWith_run _ _ s
  | sbcAbs _ => exact subtractFromA_run _ s
  | incAbs _ => exact stepMemory_run _ _ s
  | illEF => exact break_run s
  | beq _ => exact branch_run _ _ s
  | sbcIzy _ => exact subtractFromA_run _ s
  | illF2 => exact break_run s
  | illF3 => exact break_run s
  | illF4 => exact break_run s
  | sbcZpx _ => exact subtractFromA_run _ s
  | incZpx _ => exact stepMemory_run _ _ s
  | illF7 => exact break_run s
  | sed => exact implied_run fun h => h.setFlags _
  | sbcAby _ => exact subtractFromA_run _ s
  | illFA => exact break_run s
  | illFB => exact break_run s
  | illFC => exact break_run s
  | sbcAbx _ => exact subtractFromA_run _ s
  | incAbx _ => exact stepMemory_run _ _ s
  | illFF => exact break_run s

/-- No instruction faults and none is refused. -/
theorem exec_next (i : Instr) (s : State) : ∃ t, exec i s = .next t := by
  obtain ⟨_, t, h, _⟩ := exec_run i s
  exact ⟨t, h⟩

end Sys2Proof.Machine
end

