-- ==== Sys2Proof/Laws/Trace.lean ====
section
/-! SUPPORT. What the trace of a run says of memory and of the switches: the canonical form and the size of RAM are kept, a
byte changes only under a POKE record, a switch changes only with a log entry, and the records are numbered in order. -/

namespace Sys2Proof.Machine

/-! ### The resolver and RAM -/

/-- A RAM offset a legal configuration stores to is inside RAM (20_memory.md R65, R66). -/
theorem ramTarget_lt {cfg : Config} {addr : Word} {w : Bool} {sw : Registry} {k : Nat} (hc : cfg.ramSizeOk = true)
    (h : ramTarget cfg (resolve cfg addr w sw) = some k) : k < cfg.ramSize := by
  have ha := addr.isLt
  have ho : (resolve cfg addr w sw).kind = .rom ∨ (resolve cfg addr w sw).kind = .slots ∨
      (resolve cfg addr w sw).offset < 0x10000 := by
    unfold resolve
    simp only
    repeat' split
    all_goals simp only [reduceCtorEq, false_or, true_or, or_true]
    all_goals omega
  have hs : cfg.ramSize = 65536 ∨ cfg.ramSize = 131072 := by
    simpa [Config.ramSizeOk] using hc
  have hx : cfg.auxPresent = true → cfg.ramSize = 131072 := by
    intro hx
    simp only [Config.auxPresent, decide_eq_true_eq] at hx
    omega
  unfold ramTarget physOf at h
  rcases ho with ho | ho | ho
  · rw [ho] at h; simp at h
  · rw [ho] at h; simp at h
  · have : (if (resolve cfg addr w sw).isAux && !cfg.auxPresent then none
        else some ((if (resolve cfg addr w sw).isAux && cfg.auxPresent then 0x10000 else 0) +
          (resolve cfg addr w sw).offset)) = some k := by
      split at h <;> first | exact h | cases h
    split at this
    · cases this
    · cases this
      split
      · next hb =>
        have := hx (by simp_all)
        omega
      · omega

/-- A write cycle keeps the canonical form of RAM. -/
theorem storedRam_wf (addr : Word) (v : Byte) (s : State) (h : s.ram.wf = true) : (storedRam addr v s).wf = true := by
  unfold storedRam
  split
  · exact h
  · split
    · exact h
    · exact Memory.wf_write _ _ h

/-- A write cycle keeps RAM inside its size. -/
theorem storedRam_below (addr : Word) (v : Byte) (s : State) (hc : s.cfg.ramSizeOk = true)
    (h : s.ram.below s.cfg.ramSize = true) : (storedRam addr v s).below s.cfg.ramSize = true := by
  unfold storedRam
  split
  · exact h
  · next hk =>
    split
    · exact h
    · exact Memory.below_write (ramTarget_lt hc hk) h

/-- What a byte of RAM reads as after a write cycle. -/
theorem storedRam_read (addr : Word) (v : Byte) (s : State) (k : Nat) (h : s.ram.wf = true) :
    (storedRam addr v s).read k =
      if writeSuppressed addr v s = false ∧ ramTarget s.cfg (resolve s.cfg addr true s.sw) = some k then v
      else s.ram.read k := by
  unfold storedRam
  split
  · next hk => simp [hk]
  · next j hk =>
    split
    · next hs => simp [hs]
    · next hs =>
      rw [Memory.read_write _ _ _ h, hk]
      simp only [Bool.not_eq_true] at hs
      simp [hs, eq_comm]

/-- A byte no write cycle resolves to reads as before, whatever the form of RAM. -/
theorem Memory.read_write_other {k j : Nat} {v : Byte} (h : j ≠ k) : ∀ m : Memory, Memory.read j (m.write k v) =
    Memory.read j m
  | [] => by simp only [Memory.write, Memory.consCell]; split <;> simp [Memory.read, h]
  | (i, b) :: m => by
    simp only [Memory.write, Memory.consCell]
    repeat' split
    all_goals simp_all [Memory.read, Memory.read_write_other h m]

theorem storedRam_other (addr : Word) (v : Byte) (s : State) (k : Nat)
    (h : (storedRam addr v s).read k ≠ s.ram.read k) :
    writeSuppressed addr v s = false ∧ ramTarget s.cfg (resolve s.cfg addr true s.sw) = some k := by
  unfold storedRam at h
  split at h
  · exact absurd rfl h
  · next j hk =>
    split at h
    · exact absurd rfl h
    · next hs =>
      refine ⟨by simpa using hs, ?_⟩
      rw [hk]
      by_cases e : k = j
      · rw [e]
      · exact absurd (Memory.read_write_other e _) h

/-! ### The switches -/

theorem setAndNotify_logged (f : Switch) (b : Bool) (s : State) : ∃ ls, (setAndNotify f b s).swlog = s.swlog ++ ls ∧
    ∀ g : Switch, (setAndNotify f b s).sw.get g ≠ s.sw.get g →
      ∃ l ∈ ls, l.flag = g ∧ l.value = (setAndNotify f b s).sw.get g := by
  rw [setAndNotify_eq]
  refine ⟨_, rfl, ?_⟩
  intro g hg
  by_cases hgf : g = f
  · subst hgf
    simp only [Registry.get_set_same] at hg ⊢
    rw [if_neg (fun e => hg e.symm)]
    exact ⟨_, List.mem_singleton.2 rfl, rfl, rfl⟩
  · exact absurd (Registry.get_set_other _ _ hgf) hg

/-- Every switch that differs has an entry of the log's growth that says its last value. -/
def Logged (s t : State) : Prop := ∃ ls, t.swlog = s.swlog ++ ls ∧
  ∀ g : Switch, t.sw.get g ≠ s.sw.get g → ∃ l ∈ ls, l.flag = g ∧ l.value = t.sw.get g

theorem Logged.refl (s : State) : Logged s s := ⟨[], by simp, fun _ h => absurd rfl h⟩

theorem Logged.trans {s t u : State} (h1 : Logged s t) (h2 : Logged t u) : Logged s u := by
  obtain ⟨l1, e1, c1⟩ := h1
  obtain ⟨l2, e2, c2⟩ := h2
  refine ⟨l1 ++ l2, by rw [e2, e1, List.append_assoc], ?_⟩
  intro g hg
  by_cases h : u.sw.get g = t.sw.get g
  · obtain ⟨l, hm, hf, hv⟩ := c1 g (by rw [← h]; exact hg)
    exact ⟨l, List.mem_append_left _ hm, hf, by rw [hv, h]⟩
  · obtain ⟨l, hm, hf, hv⟩ := c2 g h
    exact ⟨l, List.mem_append_right _ hm, hf, hv⟩

theorem lcWriteEnable_logged (addr : Word) (isRead : Bool) (s : State) : Logged s (lcWriteEnable addr isRead s) := by
  unfold lcWriteEnable
  split
  · exact Logged.trans (setAndNotify_logged _ _ _) (setAndNotify_logged _ _ _)
  split
  · split
    · exact Logged.trans (setAndNotify_logged _ _ _) (setAndNotify_logged _ _ _)
    · exact setAndNotify_logged _ _ _
  · exact setAndNotify_logged _ _ _

theorem lcAccess_logged (addr : Word) (isRead : Bool) (s : State) : Logged s (lcAccess addr isRead s) := by
  unfold lcAccess
  exact Logged.trans (Logged.trans (setAndNotify_logged _ _ _) (setAndNotify_logged _ _ _)) (lcWriteEnable_logged _ _ _)

theorem sideEffects_logged (addr : Word) (isRead : Bool) (s : State) : Logged s (sideEffects addr isRead s) := by
  unfold sideEffects
  split
  · split
    · exact lcAccess_logged _ _ _
    · exact Logged.refl s
  split
  · exact setAndNotify_logged _ _ _
  split
  · split
    · exact setAndNotify_logged _ _ _
    · exact Logged.refl s
  · exact Logged.refl s

theorem afterRead_logged (addr : Word) (s : State) : Logged s (afterRead addr s) :=
  sideEffects_logged addr true (({ s with
    ioDraws := if readDraws addr s then s.ioDraws.tail else s.ioDraws } : State).logEvent (peekEvent addr s))

theorem memWrite_logged (addr : Word) (v : Byte) (s : State) : Logged s (memWrite addr v s) :=
  sideEffects_logged addr false (({ s with
    suppressDraws := if s.cfg.isHooked addr then s.suppressDraws.tail else s.suppressDraws
    ram := storedRam addr v s } : State).logEvent (pokeEvent addr v s))

theorem setAndNotify_iiPlus {f g : Switch} (b : Bool) (s : State) (hg : g ∈ iieOnly) (hf : f ∉ iieOnly) :
    (setAndNotify f b s).sw.get g = s.sw.get g := by
  rw [setAndNotify_eq]
  exact Registry.get_set_other _ _ (fun e => hf (e ▸ hg))

theorem lcAccess_iiPlus (addr : Word) (isRead : Bool) (s : State) {g : Switch} (hg : g ∈ iieOnly) :
    (lcAccess addr isRead s).sw.get g = s.sw.get g := by
  have k1 : ∀ b t, (setAndNotify .lcBank1 b t).sw.get g = t.sw.get g := fun b t => setAndNotify_iiPlus b t hg (by decide)
  have k2 : ∀ b t, (setAndNotify .lcReadRam b t).sw.get g = t.sw.get g := fun b t => setAndNotify_iiPlus b t hg (by decide)
  have k3 : ∀ b t, (setAndNotify .lcWriteRam b t).sw.get g = t.sw.get g := fun b t => setAndNotify_iiPlus b t hg (by decide)
  have k4 : ∀ b t, (setAndNotify .lcPrewrite b t).sw.get g = t.sw.get g := fun b t => setAndNotify_iiPlus b t hg (by decide)
  unfold lcAccess
  generalize hu : setAndNotify .lcReadRam (addr.getLsbD 0 == addr.getLsbD 1) (setAndNotify .lcBank1 (addr.getLsbD 3) s) = u
  have hk : u.sw.get g = s.sw.get g := by rw [← hu, k2, k1]
  unfold lcWriteEnable
  split
  · rw [k4, k3, hk]
  split
  · split
    · rw [k4, k3, hk]
    · rw [k4, hk]
  · rw [k4, hk]

theorem displaySwitch_iiPlus (k : Nat) : displaySwitch k ∉ iieOnly := by
  unfold displaySwitch
  split <;> decide

/-- On a II+ no access moves a switch only an IIe has (20_memory.md R86). -/
theorem sideEffects_iiPlus (addr : Word) (isRead : Bool) (s : State) (h : s.cfg.machine = .iiPlus) {g : Switch}
    (hg : g ∈ iieOnly) : (sideEffects addr isRead s).sw.get g = s.sw.get g := by
  have hm : ¬ (s.cfg.machine = .iie ∧ isRead = false) := by
    rw [h]
    intro hm
    exact absurd hm.1 (by decide)
  unfold sideEffects
  rw [if_neg hm]
  split
  · split
    · exact lcAccess_iiPlus _ _ _ hg
    · rfl
  split
  · exact setAndNotify_iiPlus _ _ hg (displaySwitch_iiPlus _)
  · split <;> rfl

theorem afterRead_iiPlus (addr : Word) (s : State) (h : s.cfg.machine = .iiPlus) {g : Switch} (hg : g ∈ iieOnly) :
    (afterRead addr s).sw.get g = s.sw.get g :=
  sideEffects_iiPlus addr true (({ s with
    ioDraws := if readDraws addr s then s.ioDraws.tail else s.ioDraws } : State).logEvent (peekEvent addr s)) h hg

theorem memWrite_iiPlus (addr : Word) (v : Byte) (s : State) (h : s.cfg.machine = .iiPlus) {g : Switch}
    (hg : g ∈ iieOnly) : (memWrite addr v s).sw.get g = s.sw.get g :=
  sideEffects_iiPlus addr false (({ s with
    suppressDraws := if s.cfg.isHooked addr then s.suppressDraws.tail else s.suppressDraws
    ram := storedRam addr v s } : State).logEvent (pokeEvent addr v s)) h hg

/-! ### Induction over a run -/

/-- What every bus cycle keeps, a run keeps. -/
theorem Cycles.keep {P : State → Prop} (hr : ∀ addr s, P s → P (afterRead addr s))
    (hw : ∀ addr v s, P s → P (memWrite addr v s)) {es : List BusEvent} :
    ∀ {s u : State}, Cycles s es u → P s → P u := by
  induction es with
  | nil => intro s u h hp; cases h; exact hp
  | cons e es ih =>
    intro s u h hp
    rcases h.cons_cases with ⟨_, h'⟩ | ⟨_, h'⟩
    · exact ih h' (hr _ _ hp)
    · exact ih h' (hw _ _ _ hp)

theorem Cycles.ram_wf {s u : State} {es : List BusEvent} (h : Cycles s es u) (hs : s.ram.wf = true) : u.ram.wf = true :=
  h.keep (P := fun t => t.ram.wf = true) (fun _ _ hp => by simpa using hp)
    (fun _ _ _ hp => by simpa using storedRam_wf _ _ _ hp) hs

theorem Cycles.ram_below {s u : State} {es : List BusEvent} (h : Cycles s es u) (hc : s.cfg.ramSizeOk = true)
    (hs : s.ram.below s.cfg.ramSize = true) : u.ram.below s.cfg.ramSize = true :=
  (h.keep (P := fun t => t.cfg = s.cfg ∧ t.ram.below s.cfg.ramSize = true) (fun _ _ hp => by simpa using hp)
    (fun addr v t hp => by
      refine ⟨by simpa using hp.1, ?_⟩
      have := storedRam_below addr v t (hp.1 ▸ hc) (hp.1 ▸ hp.2)
      rw [hp.1] at this
      simpa using this) ⟨rfl, hs⟩).2

theorem Cycles.logged {s u : State} {es : List BusEvent} (h : Cycles s es u) : Logged s u :=
  h.keep (P := fun t => Logged s t) (fun _ _ hp => hp.trans (afterRead_logged _ _))
    (fun _ _ _ hp => hp.trans (memWrite_logged _ _ _)) (Logged.refl s)

theorem Cycles.iiPlus {s u : State} {es : List BusEvent} (h : Cycles s es u) (hm : s.cfg.machine = .iiPlus) :
    ∀ f ∈ iieOnly, u.sw.get f = s.sw.get f :=
  (h.keep (P := fun t => t.cfg = s.cfg ∧ ∀ f ∈ iieOnly, t.sw.get f = s.sw.get f)
    (fun addr t hp => ⟨by simpa using hp.1, fun f hf => by rw [afterRead_iiPlus addr t (hp.1 ▸ hm) hf, hp.2 f hf]⟩)
    (fun addr v t hp => ⟨by simpa using hp.1, fun f hf => by rw [memWrite_iiPlus addr v t (hp.1 ▸ hm) hf, hp.2 f hf]⟩)
    ⟨rfl, fun _ _ => rfl⟩).2

/-- The records of a run are numbered from the cycle it starts at (10_state.md R33, R34). -/
theorem Cycles.numbers {es : List BusEvent} : ∀ {s u : State}, Cycles s es u → ∀ (k : Nat) (e : BusEvent),
    es[k]? = some e → e.cycle = s.cycles + k := by
  induction es with
  | nil => intro s u _ k e h; simp at h
  | cons e0 es ih =>
    intro s u h k e he
    cases k with
    | zero =>
      simp only [List.getElem?_cons_zero, Option.some.injEq] at he
      subst he
      rcases h.cons_cases with ⟨hc, _⟩ | ⟨hc, _⟩
      · rw [hc]; rfl
      · rw [hc]; rfl
    | succ k =>
      simp only [List.getElem?_cons_succ] at he
      rcases h.cons_cases with ⟨_, h'⟩ | ⟨_, h'⟩
      · have := ih h' k e he
        rw [afterRead_cycles] at this
        omega
      · have := ih h' k e he
        rw [memWrite_cycles] at this
        omega

/-- A byte of RAM changes only where an unsuppressed POKE record resolves to it (20_memory.md R69). -/
theorem Cycles.ram_changes {es : List BusEvent} : ∀ {s u : State}, Cycles s es u → ∀ k : Nat,
    u.ram.read k ≠ s.ram.read k →
    ∃ e ∈ es, e.type = .poke ∧ e.suppressed = false ∧ ramTarget s.cfg e.resolution = some k := by
  induction es with
  | nil => intro s u h k hk; cases h; exact absurd rfl hk
  | cons e es ih =>
    intro s u h k hk
    rcases h.cons_cases with ⟨hc, h'⟩ | ⟨hc, h'⟩
    · obtain ⟨e', hm, ht⟩ := ih h' k (by simpa using hk)
      exact ⟨e', List.mem_cons_of_mem _ hm, by simpa using ht⟩
    · by_cases h2 : u.ram.read k = (memWrite e.addr e.value s).ram.read k
      · rw [h2, memWrite_ram] at hk
        have := storedRam_other _ _ _ _ hk
        exact ⟨e, List.mem_cons_self, by rw [hc]; rfl, by rw [hc]; exact this.1, by rw [hc]; exact this.2⟩
      · obtain ⟨e', hm, ht⟩ := ih h' k h2
        exact ⟨e', List.mem_cons_of_mem _ hm, by simpa using ht⟩

/-! ### The same of a run that moves registers -/

section
variable {s t : State} {es : List BusEvent} (h : Run s es t)
include h

theorem Run.ram_wf (hs : s.ram.wf = true) : t.ram.wf = true := by
  obtain ⟨u, h1, h2⟩ := h; rw [h2]; exact h1.ram_wf hs

theorem Run.ram_below (hc : s.cfg.ramSizeOk = true) (hs : s.ram.below s.cfg.ramSize = true) :
    t.ram.below s.cfg.ramSize = true := by
  obtain ⟨u, h1, h2⟩ := h; rw [h2]; exact h1.ram_below hc hs

theorem Run.logged : Logged s t := by obtain ⟨u, h1, h2⟩ := h; rw [h2]; exact h1.logged

theorem Run.iiPlus (hm : s.cfg.machine = .iiPlus) : ∀ f ∈ iieOnly, t.sw.get f = s.sw.get f := by
  obtain ⟨u, h1, h2⟩ := h; rw [h2]; exact h1.iiPlus hm

theorem Run.swlog : ∃ ls, t.swlog = s.swlog ++ ls ∧ ∀ l ∈ ls, s.cycles ≤ l.cycle ∧ l.cycle < s.cycles + es.length := by
  obtain ⟨u, h1, h2⟩ := h; rw [h2]; exact h1.swlog

theorem Run.numbers (k : Nat) (e : BusEvent) (he : es[k]? = some e) : e.cycle = s.cycles + k := by
  obtain ⟨u, h1, _⟩ := h; exact h1.numbers k e he

theorem Run.ram_changes (k : Nat) (hk : t.ram.read k ≠ s.ram.read k) :
    ∃ e ∈ es, e.type = .poke ∧ e.suppressed = false ∧ ramTarget s.cfg e.resolution = some k := by
  obtain ⟨u, h1, h2⟩ := h; rw [h2] at hk; exact h1.ram_changes k hk

end

end Sys2Proof.Machine
end

