-- ==== Sys2Proof/Laws/Boundary.lean ====
section
/-! SUPPORT. Inversion of a boundary step: what the environment's events can change, what fetching an instruction does, and the
few ways a step answers a next state (`step_cases`). -/

namespace Sys2Proof.Machine

/-! ### The environment's events -/

/-- The events of a boundary change PC and the fault mark only. -/
def EventsOnly (s t : State) : Prop := t = { s with pc := t.pc, fault := t.fault }

theorem EventsOnly.refl (s : State) : EventsOnly s s := rfl

theorem EventsOnly.trans {s t u : State} (h1 : EventsOnly s t) (h2 : EventsOnly t u) : EventsOnly s u := by
  unfold EventsOnly at *
  rw [h2, h1]

theorem raiseFault_only (f : Fault) (s : State) : EventsOnly s (raiseFault f s) := rfl

theorem registryReads_only : ∀ (fs : List Nat) (s : State), EventsOnly s (registryReads fs s)
  | [], s => rfl
  | f :: fs, s => by
    unfold registryReads registryGet
    split
    · exact registryReads_only fs s
    · next h =>
      split at h
      · cases h
      · cases h; exact raiseFault_only _ s

theorem prestep_only : ∀ (ws : List Word) (n : Nat) (s : State), EventsOnly s (prestep n ws s)
  | [], _, s => rfl
  | w :: ws, n, s => by
    unfold prestep
    split
    · rfl
    split
    · rfl
    · exact EventsOnly.trans (t := s.setPc w) rfl (prestep_only ws _ _)

theorem stepCheck_only (c : Option Word) (s : State) : EventsOnly s (stepCheck c s) := by
  unfold stepCheck
  split
  · rfl
  · split <;> rfl

theorem unlessFaulted_only {f : State → State} (hf : ∀ s, EventsOnly s (f s)) (s : State) :
    EventsOnly s (unlessFaulted f s) := by
  unfold unlessFaulted
  split
  · rfl
  · exact hf s

/-- Everything the events of a boundary can do: PC, the fault mark, and the input taken. -/
theorem eventsState_only (s : State) :
    eventsState s = { s with
      pc := (eventsState s).pc, fault := (eventsState s).fault, inputs := s.inputs.tail } := by
  have h : EventsOnly (takeInput s) (eventsState s) := by
    unfold eventsState boundaryEvents
    exact ((registryReads_only _ _).trans (unlessFaulted_only (fun t => prestep_only _ _ t) _)).trans
      (unlessFaulted_only (fun t => stepCheck_only _ t) _)
  exact h

/-- A quiet boundary only takes its input. -/
theorem eventsState_quiet {s : State} (h : QuietBoundary s) (hf : s.fault = none) : eventsState s = takeInput s := by
  unfold QuietBoundary at h
  unfold eventsState
  rw [h]
  simp [boundaryEvents, registryReads, prestep, stepCheck, unlessFaulted, BoundaryInput.quiet, takeInput, hf]

/-! ### Fetching -/

theorem fetch_eq (s : State) : fetch s = (readValue s.pc s, (afterRead s.pc s).setPc (s.pc + 1)) := rfl

/-- Fetching an instruction makes read cycles only. -/
theorem fetchInstr_run (s : State) : ∃ es, (∀ e ∈ es, e.type = .peek) ∧ Run s es (fetchInstr s).2 := by
  have one : ∀ t : State, ∀ e ∈ [peekEvent t.pc t], e.type = .peek := by simp [peekEvent]
  have app : ∀ es es' : List BusEvent, (∀ e ∈ es, e.type = .peek) → (∀ e ∈ es', e.type = .peek) →
      ∀ e ∈ es ++ es', e.type = .peek := fun es es' h h' e he => (List.mem_append.1 he).elim (h e) (h' e)
  unfold fetchInstr
  dsimp only
  split
  · exact ⟨_, one s, fetch_run s⟩
  · exact ⟨_, app _ _ (one s) (one _), (fetch_run s).trans (fetch_run _)⟩
  · split
    · exact ⟨_, app _ _ (one s) (one _), (fetch_run s).trans (fetch_run _)⟩
    · exact ⟨_, app _ _ (app _ _ (one s) (one _)) (one _), ((fetch_run s).trans (fetch_run _)).trans (fetch_run _)⟩

/-- Fetching and executing an instruction is a run. -/
theorem instructionStep_run (s : State) : NextByRun (instructionStep s) s := by
  obtain ⟨es, _, h1⟩ := fetchInstr_run s
  obtain ⟨es', t, h2, h3⟩ := exec_run (fetchInstr s).1 (fetchInstr s).2
  exact ⟨es ++ es', t, h2, h1.trans h3⟩

/-! ### The reset sequence -/

/-- The first six cycles of the reset sequence are reads from the state with its switches reset
(70_reset_and_hazards.md R351, r1 to r6). -/
theorem beforeResetVector_run (s : State) : ∃ es, (∀ e ∈ es, e.type = .peek) ∧ es.length = 6 ∧
    Run { s with sw := s.sw.switchReset } es (beforeResetVector s) := by
  have fake : ∀ t : State, Run t [peekEvent (stackAddr t.sp) t] (fakePush t) := fun t => (Run.read _ _).setSp _
  obtain ⟨s0, e0⟩ : ∃ s0 : State, s0 = { s with sw := s.sw.switchReset } := ⟨_, rfl⟩
  obtain ⟨s3, e3⟩ : ∃ s3, s3 = dummyRead s0.pc (dummyRead s0.pc (dummyRead s0.pc s0)) := ⟨_, rfl⟩
  obtain ⟨s6, e6⟩ : ∃ s6, s6 = fakePush (fakePush (fakePush s3)) := ⟨_, rfl⟩
  have hs : beforeResetVector s = s6.setFlags { s6.p with i := true } := by
    rw [e6, e3, e0]
    rfl
  have h1 := (Run.read s0.pc s0).trans ((Run.read s0.pc _).trans (Run.read s0.pc _))
  have h2 := (fake s3).trans ((fake (fakePush s3)).trans (fake (fakePush (fakePush s3))))
  rw [hs, ← e0]
  exact ⟨_, by simp [peekEvent], rfl, (h1.trans (e3 ▸ e6 ▸ h2)).setFlags _⟩

/-- The switches the vector reads are resolved under: ALTZP clear, and RAM or ROM selected as `vectorInRam` says. -/
theorem beforeResetVector_select (s : State) :
    (beforeResetVector s).sw.altzp = false ∧
      (s.cfg.lcPresent && (beforeResetVector s).sw.lcReadRam) = vectorInRam s := by
  have st : ∀ (k : Byte) (t : State), (afterRead (stackAddr k) t).sw = t.sw := fun k t =>
    (afterRead_plain t (.inl (by
      have : (stackAddr k).toNat < 0x200 := by rw [toNat_stackAddr]; have := k.isLt; omega
      exact Nat.lt_trans this (by decide)))).1
  unfold beforeResetVector fakePush dummyRead vectorInRam
  simp only [State.setFlags, State.setSp, st]
  simp only [afterRead_select, afterRead_cfg, Registry.switchReset]
  refine ⟨trivial, ?_⟩
  cases h : s.cfg.lcPresent
  · rfl
  · simp only [true_and, Bool.true_and]
    split <;> rfl

/-- The reset sequence is a run of eight reads from the state with its switches reset (70_reset_and_hazards.md R351). -/
theorem resetSequence_run (s : State) : ∃ es, (∀ e ∈ es, e.type = .peek) ∧ es.length = 8 ∧
    Run { s with sw := s.sw.switchReset } es (resetSequence s) := by
  obtain ⟨es1, hr1, hl1, h1⟩ := beforeResetVector_run s
  obtain ⟨es2, hr2, hl2, h2⟩ := jumpThrough_run resetVector (beforeResetVector s)
  exact ⟨es1 ++ es2, fun e he => (List.mem_append.1 he).elim (hr1 e) (hr2 e), by simp [hl1, hl2], h1.trans h2⟩

/-! ### The cases of a step -/

/-- The ways a boundary step answers a next state: the power-on reset, a warm or a cold reset, an IRQ entry, or an
instruction (60_exceptions.md R331). -/
theorem step_cases {s t : State} (h : step s = .next t) :
    s.refusal = none ∧ s.fault = none ∧
      ((s.powerOn = true ∧ t = powerOnReset s) ∨
        (Running s ∧ (eventsState s).fault = none ∧
          (((boundaryInput s).reset = .warm ∧ t = resetSequence (eventsState s)) ∨
            (∃ d, (boundaryInput s).reset = .cold d ∧ t = coldReset d (eventsState s)) ∨
            ((boundaryInput s).reset = .none ∧ (boundaryInput s).irqLine = true ∧ (eventsState s).p.i = false ∧
              t = irqEntry (eventsState s)) ∨
            (Executes s ∧ instructionStep (eventsState s) = .next t)))) := by
  unfold step boundaryStep at h
  split at h
  · cases h
  · cases h
  · next hr hf =>
    refine ⟨hr, hf, ?_⟩
    split at h
    · next hp => exact .inl ⟨hp, (Host.Outcome.next.inj h).symm⟩
    · next hp =>
      split at h
      · cases h
      · next he =>
        have run : Running s := ⟨hr, hf, by simpa using hp, he⟩
        refine .inr ⟨run, ?_⟩
        have hu : boundaryEvents (boundaryInput s) (takeInput s) = eventsState s := rfl
        unfold runBoundary at h
        simp only [hu] at h
        split at h
        · cases h
        · next hn =>
          refine ⟨hn, ?_⟩
          unfold afterEvents at h
          split at h
          · next hq => exact .inl ⟨hq, (Host.Outcome.next.inj h).symm⟩
          · next d hq => exact .inr (.inl ⟨d, hq, (Host.Outcome.next.inj h).symm⟩)
          · next hq =>
            split at h
            · next hi =>
              simp only [Bool.and_eq_true, Bool.not_eq_true'] at hi
              exact .inr (.inr (.inl ⟨hq, hi.1, hi.2, (Host.Outcome.next.inj h).symm⟩))
            · next hi =>
              refine .inr (.inr (.inr ⟨⟨run, hn, hq, ?_⟩, h⟩))
              cases h1 : (boundaryInput s).irqLine <;> simp_all

/-- The first step after power-on (70_reset_and_hazards.md R358). -/
theorem step_of_powerOn {s : State} (h1 : s.refusal = none) (h2 : s.fault = none) (h3 : s.powerOn = true) :
    step s = .next (powerOnReset s) := by
  unfold step boundaryStep
  rw [h1, h2]
  simp only [h3, if_true]

/-- A boundary that can run and whose events do not fault goes on to reset, IRQ or the instruction. -/
theorem step_of_running {s : State} (h : Running s) (hn : (eventsState s).fault = none) :
    step s = afterEvents (boundaryInput s) (eventsState s) := by
  obtain ⟨hr, hf, hp, he⟩ := h
  have hu : boundaryEvents (boundaryInput s) (takeInput s) = eventsState s := rfl
  unfold step boundaryStep
  rw [hr, hf]
  simp only [hp, Bool.false_eq_true, if_false, he]
  unfold runBoundary
  simp only [hu, hn]

/-- A boundary that can run and whose events fault answers that fault. -/
theorem step_of_event_fault {s : State} {f : Fault} (h : Running s) (hn : (eventsState s).fault = some f) :
    step s = .fault f := by
  obtain ⟨hr, hf, hp, he⟩ := h
  have hu : boundaryEvents (boundaryInput s) (takeInput s) = eventsState s := rfl
  unfold step boundaryStep
  rw [hr, hf]
  simp only [hp, Bool.false_eq_true, if_false, he]
  unfold runBoundary
  simp only [hu, hn]

/-- A boundary that executes an instruction fetches and executes it. -/
theorem step_of_executes {s : State} (h : Executes s) : step s = instructionStep (eventsState s) := by
  obtain ⟨hr, hn, hq, hi⟩ := h
  have hb : ((boundaryInput s).irqLine && !(eventsState s).p.i) = false := by
    rcases hi with hi | hi <;> simp [hi]
  rw [step_of_running hr hn]
  unfold afterEvents
  simp only [hq, hb, Bool.false_eq_true, if_false]

end Sys2Proof.Machine
end

