-- ==== Sys2Proof/Laws/PerInstr.lean ====
section
/-! SUPPORT. One lemma per constructor of `Instr`: its bytes are its opcode and its operand, and the map's form for that opcode
builds it back. -/

namespace Sys2Proof.Laws.EncodedForm

/-- The bytes of `i` are its opcode and the operand bytes of the form the opcode map gives that byte, and that form, given the
operand, is `i` (30_encoding.md R120, R122). -/
def Statement (i : Instr) : Prop :=
  match (opcodeRow i.opcode).form with
  | .implied j => encode i = [i.opcode] ∧ j = i
  | .byte f => ∃ b, encode i = [i.opcode, b] ∧ f b = i
  | .word f => ∃ w, encode i = i.opcode :: wordBytes w ∧ f w = i

theorem brk : Statement .brk := ⟨rfl, rfl⟩

theorem oraIzx (p : Byte) : Statement (.oraIzx p) := ⟨p, rfl, rfl⟩

theorem oraZp (p : Byte) : Statement (.oraZp p) := ⟨p, rfl, rfl⟩

theorem aslZp (p : Byte) : Statement (.aslZp p) := ⟨p, rfl, rfl⟩

theorem php : Statement .php := ⟨rfl, rfl⟩

theorem oraImm (v : Byte) : Statement (.oraImm v) := ⟨v, rfl, rfl⟩

theorem aslAcc : Statement .aslAcc := ⟨rfl, rfl⟩

theorem oraAbs (addr : Word) : Statement (.oraAbs addr) := ⟨addr, rfl, rfl⟩

theorem aslAbs (addr : Word) : Statement (.aslAbs addr) := ⟨addr, rfl, rfl⟩

theorem bpl (d : Byte) : Statement (.bpl d) := ⟨d, rfl, rfl⟩

theorem oraIzy (p : Byte) : Statement (.oraIzy p) := ⟨p, rfl, rfl⟩

theorem oraZpx (p : Byte) : Statement (.oraZpx p) := ⟨p, rfl, rfl⟩

theorem aslZpx (p : Byte) : Statement (.aslZpx p) := ⟨p, rfl, rfl⟩

theorem clc : Statement .clc := ⟨rfl, rfl⟩

theorem oraAby (base : Word) : Statement (.oraAby base) := ⟨base, rfl, rfl⟩

theorem oraAbx (base : Word) : Statement (.oraAbx base) := ⟨base, rfl, rfl⟩

theorem aslAbx (base : Word) : Statement (.aslAbx base) := ⟨base, rfl, rfl⟩

theorem jsr (addr : Word) : Statement (.jsr addr) := ⟨addr, rfl, rfl⟩

theorem andIzx (p : Byte) : Statement (.andIzx p) := ⟨p, rfl, rfl⟩

theorem bitZp (p : Byte) : Statement (.bitZp p) := ⟨p, rfl, rfl⟩

theorem andZp (p : Byte) : Statement (.andZp p) := ⟨p, rfl, rfl⟩

theorem rolZp (p : Byte) : Statement (.rolZp p) := ⟨p, rfl, rfl⟩

theorem plp : Statement .plp := ⟨rfl, rfl⟩

theorem andImm (v : Byte) : Statement (.andImm v) := ⟨v, rfl, rfl⟩

theorem rolAcc : Statement .rolAcc := ⟨rfl, rfl⟩

theorem bitAbs (addr : Word) : Statement (.bitAbs addr) := ⟨addr, rfl, rfl⟩

theorem andAbs (addr : Word) : Statement (.andAbs addr) := ⟨addr, rfl, rfl⟩

theorem rolAbs (addr : Word) : Statement (.rolAbs addr) := ⟨addr, rfl, rfl⟩

theorem bmi (d : Byte) : Statement (.bmi d) := ⟨d, rfl, rfl⟩

theorem andIzy (p : Byte) : Statement (.andIzy p) := ⟨p, rfl, rfl⟩

theorem andZpx (p : Byte) : Statement (.andZpx p) := ⟨p, rfl, rfl⟩

theorem rolZpx (p : Byte) : Statement (.rolZpx p) := ⟨p, rfl, rfl⟩

theorem sec : Statement .sec := ⟨rfl, rfl⟩

theorem andAby (base : Word) : Statement (.andAby base) := ⟨base, rfl, rfl⟩

theorem andAbx (base : Word) : Statement (.andAbx base) := ⟨base, rfl, rfl⟩

theorem rolAbx (base : Word) : Statement (.rolAbx base) := ⟨base, rfl, rfl⟩

theorem rti : Statement .rti := ⟨rfl, rfl⟩

theorem eorIzx (p : Byte) : Statement (.eorIzx p) := ⟨p, rfl, rfl⟩

theorem eorZp (p : Byte) : Statement (.eorZp p) := ⟨p, rfl, rfl⟩

theorem lsrZp (p : Byte) : Statement (.lsrZp p) := ⟨p, rfl, rfl⟩

theorem pha : Statement .pha := ⟨rfl, rfl⟩

theorem eorImm (v : Byte) : Statement (.eorImm v) := ⟨v, rfl, rfl⟩

theorem lsrAcc : Statement .lsrAcc := ⟨rfl, rfl⟩

theorem jmpAbs (addr : Word) : Statement (.jmpAbs addr) := ⟨addr, rfl, rfl⟩

theorem eorAbs (addr : Word) : Statement (.eorAbs addr) := ⟨addr, rfl, rfl⟩

theorem lsrAbs (addr : Word) : Statement (.lsrAbs addr) := ⟨addr, rfl, rfl⟩

theorem bvc (d : Byte) : Statement (.bvc d) := ⟨d, rfl, rfl⟩

theorem eorIzy (p : Byte) : Statement (.eorIzy p) := ⟨p, rfl, rfl⟩

theorem eorZpx (p : Byte) : Statement (.eorZpx p) := ⟨p, rfl, rfl⟩

theorem lsrZpx (p : Byte) : Statement (.lsrZpx p) := ⟨p, rfl, rfl⟩

theorem cli : Statement .cli := ⟨rfl, rfl⟩

theorem eorAby (base : Word) : Statement (.eorAby base) := ⟨base, rfl, rfl⟩

theorem eorAbx (base : Word) : Statement (.eorAbx base) := ⟨base, rfl, rfl⟩

theorem lsrAbx (base : Word) : Statement (.lsrAbx base) := ⟨base, rfl, rfl⟩

theorem rts : Statement .rts := ⟨rfl, rfl⟩

theorem adcIzx (p : Byte) : Statement (.adcIzx p) := ⟨p, rfl, rfl⟩

theorem adcZp (p : Byte) : Statement (.adcZp p) := ⟨p, rfl, rfl⟩

theorem rorZp (p : Byte) : Statement (.rorZp p) := ⟨p, rfl, rfl⟩

theorem pla : Statement .pla := ⟨rfl, rfl⟩

theorem adcImm (v : Byte) : Statement (.adcImm v) := ⟨v, rfl, rfl⟩

theorem rorAcc : Statement .rorAcc := ⟨rfl, rfl⟩

theorem jmpInd (ptr : Word) : Statement (.jmpInd ptr) := ⟨ptr, rfl, rfl⟩

theorem adcAbs (addr : Word) : Statement (.adcAbs addr) := ⟨addr, rfl, rfl⟩

theorem rorAbs (addr : Word) : Statement (.rorAbs addr) := ⟨addr, rfl, rfl⟩

theorem bvs (d : Byte) : Statement (.bvs d) := ⟨d, rfl, rfl⟩

theorem adcIzy (p : Byte) : Statement (.adcIzy p) := ⟨p, rfl, rfl⟩

theorem adcZpx (p : Byte) : Statement (.adcZpx p) := ⟨p, rfl, rfl⟩

theorem rorZpx (p : Byte) : Statement (.rorZpx p) := ⟨p, rfl, rfl⟩

theorem sei : Statement .sei := ⟨rfl, rfl⟩

theorem adcAby (base : Word) : Statement (.adcAby base) := ⟨base, rfl, rfl⟩

theorem adcAbx (base : Word) : Statement (.adcAbx base) := ⟨base, rfl, rfl⟩

theorem rorAbx (base : Word) : Statement (.rorAbx base) := ⟨base, rfl, rfl⟩

theorem staIzx (p : Byte) : Statement (.staIzx p) := ⟨p, rfl, rfl⟩

theorem styZp (p : Byte) : Statement (.styZp p) := ⟨p, rfl, rfl⟩

theorem staZp (p : Byte) : Statement (.staZp p) := ⟨p, rfl, rfl⟩

theorem stxZp (p : Byte) : Statement (.stxZp p) := ⟨p, rfl, rfl⟩

theorem dey : Statement .dey := ⟨rfl, rfl⟩

theorem txa : Statement .txa := ⟨rfl, rfl⟩

theorem styAbs (addr : Word) : Statement (.styAbs addr) := ⟨addr, rfl, rfl⟩

theorem staAbs (addr : Word) : Statement (.staAbs addr) := ⟨addr, rfl, rfl⟩

theorem stxAbs (addr : Word) : Statement (.stxAbs addr) := ⟨addr, rfl, rfl⟩

theorem bcc (d : Byte) : Statement (.bcc d) := ⟨d, rfl, rfl⟩

theorem staIzy (p : Byte) : Statement (.staIzy p) := ⟨p, rfl, rfl⟩

theorem styZpx (p : Byte) : Statement (.styZpx p) := ⟨p, rfl, rfl⟩

theorem staZpx (p : Byte) : Statement (.staZpx p) := ⟨p, rfl, rfl⟩

theorem stxZpy (p : Byte) : Statement (.stxZpy p) := ⟨p, rfl, rfl⟩

theorem tya : Statement .tya := ⟨rfl, rfl⟩

theorem staAby (base : Word) : Statement (.staAby base) := ⟨base, rfl, rfl⟩

theorem txs : Statement .txs := ⟨rfl, rfl⟩

theorem staAbx (base : Word) : Statement (.staAbx base) := ⟨base, rfl, rfl⟩

theorem ldyImm (v : Byte) : Statement (.ldyImm v) := ⟨v, rfl, rfl⟩

theorem ldaIzx (p : Byte) : Statement (.ldaIzx p) := ⟨p, rfl, rfl⟩

theorem ldxImm (v : Byte) : Statement (.ldxImm v) := ⟨v, rfl, rfl⟩

theorem ldyZp (p : Byte) : Statement (.ldyZp p) := ⟨p, rfl, rfl⟩

theorem ldaZp (p : Byte) : Statement (.ldaZp p) := ⟨p, rfl, rfl⟩

theorem ldxZp (p : Byte) : Statement (.ldxZp p) := ⟨p, rfl, rfl⟩

theorem tay : Statement .tay := ⟨rfl, rfl⟩

theorem ldaImm (v : Byte) : Statement (.ldaImm v) := ⟨v, rfl, rfl⟩

theorem tax : Statement .tax := ⟨rfl, rfl⟩

theorem ldyAbs (addr : Word) : Statement (.ldyAbs addr) := ⟨addr, rfl, rfl⟩

theorem ldaAbs (addr : Word) : Statement (.ldaAbs addr) := ⟨addr, rfl, rfl⟩

theorem ldxAbs (addr : Word) : Statement (.ldxAbs addr) := ⟨addr, rfl, rfl⟩

theorem bcs (d : Byte) : Statement (.bcs d) := ⟨d, rfl, rfl⟩

theorem ldaIzy (p : Byte) : Statement (.ldaIzy p) := ⟨p, rfl, rfl⟩

theorem ldyZpx (p : Byte) : Statement (.ldyZpx p) := ⟨p, rfl, rfl⟩

theorem ldaZpx (p : Byte) : Statement (.ldaZpx p) := ⟨p, rfl, rfl⟩

theorem ldxZpy (p : Byte) : Statement (.ldxZpy p) := ⟨p, rfl, rfl⟩

theorem clv : Statement .clv := ⟨rfl, rfl⟩

theorem ldaAby (base : Word) : Statement (.ldaAby base) := ⟨base, rfl, rfl⟩

theorem tsx : Statement .tsx := ⟨rfl, rfl⟩

theorem ldyAbx (base : Word) : Statement (.ldyAbx base) := ⟨base, rfl, rfl⟩

theorem ldaAbx (base : Word) : Statement (.ldaAbx base) := ⟨base, rfl, rfl⟩

theorem ldxAby (base : Word) : Statement (.ldxAby base) := ⟨base, rfl, rfl⟩

theorem cpyImm (v : Byte) : Statement (.cpyImm v) := ⟨v, rfl, rfl⟩

theorem cmpIzx (p : Byte) : Statement (.cmpIzx p) := ⟨p, rfl, rfl⟩

theorem cpyZp (p : Byte) : Statement (.cpyZp p) := ⟨p, rfl, rfl⟩

theorem cmpZp (p : Byte) : Statement (.cmpZp p) := ⟨p, rfl, rfl⟩

theorem decZp (p : Byte) : Statement (.decZp p) := ⟨p, rfl, rfl⟩

theorem iny : Statement .iny := ⟨rfl, rfl⟩

theorem cmpImm (v : Byte) : Statement (.cmpImm v) := ⟨v, rfl, rfl⟩

theorem dex : Statement .dex := ⟨rfl, rfl⟩

theorem cpyAbs (addr : Word) : Statement (.cpyAbs addr) := ⟨addr, rfl, rfl⟩

theorem cmpAbs (addr : Word) : Statement (.cmpAbs addr) := ⟨addr, rfl, rfl⟩

theorem decAbs (addr : Word) : Statement (.decAbs addr) := ⟨addr, rfl, rfl⟩

theorem bne (d : Byte) : Statement (.bne d) := ⟨d, rfl, rfl⟩

theorem cmpIzy (p : Byte) : Statement (.cmpIzy p) := ⟨p, rfl, rfl⟩

theorem cmpZpx (p : Byte) : Statement (.cmpZpx p) := ⟨p, rfl, rfl⟩

theorem decZpx (p : Byte) : Statement (.decZpx p) := ⟨p, rfl, rfl⟩

theorem cld : Statement .cld := ⟨rfl, rfl⟩

theorem cmpAby (base : Word) : Statement (.cmpAby base) := ⟨base, rfl, rfl⟩

theorem cmpAbx (base : Word) : Statement (.cmpAbx base) := ⟨base, rfl, rfl⟩

theorem decAbx (base : Word) : Statement (.decAbx base) := ⟨base, rfl, rfl⟩

theorem cpxImm (v : Byte) : Statement (.cpxImm v) := ⟨v, rfl, rfl⟩

theorem sbcIzx (p : Byte) : Statement (.sbcIzx p) := ⟨p, rfl, rfl⟩

theorem cpxZp (p : Byte) : Statement (.cpxZp p) := ⟨p, rfl, rfl⟩

theorem sbcZp (p : Byte) : Statement (.sbcZp p) := ⟨p, rfl, rfl⟩

theorem incZp (p : Byte) : Statement (.incZp p) := ⟨p, rfl, rfl⟩

theorem inx : Statement .inx := ⟨rfl, rfl⟩

theorem sbcImm (v : Byte) : Statement (.sbcImm v) := ⟨v, rfl, rfl⟩

theorem nop : Statement .nop := ⟨rfl, rfl⟩

theorem cpxAbs (addr : Word) : Statement (.cpxAbs addr) := ⟨addr, rfl, rfl⟩

theorem sbcAbs (addr : Word) : Statement (.sbcAbs addr) := ⟨addr, rfl, rfl⟩

theorem incAbs (addr : Word) : Statement (.incAbs addr) := ⟨addr, rfl, rfl⟩

theorem beq (d : Byte) : Statement (.beq d) := ⟨d, rfl, rfl⟩

theorem sbcIzy (p : Byte) : Statement (.sbcIzy p) := ⟨p, rfl, rfl⟩

theorem sbcZpx (p : Byte) : Statement (.sbcZpx p) := ⟨p, rfl, rfl⟩

theorem incZpx (p : Byte) : Statement (.incZpx p) := ⟨p, rfl, rfl⟩

theorem sed : Statement .sed := ⟨rfl, rfl⟩

theorem sbcAby (base : Word) : Statement (.sbcAby base) := ⟨base, rfl, rfl⟩

theorem sbcAbx (base : Word) : Statement (.sbcAbx base) := ⟨base, rfl, rfl⟩

theorem incAbx (base : Word) : Statement (.incAbx base) := ⟨base, rfl, rfl⟩

theorem ill02 : Statement .ill02 := ⟨rfl, rfl⟩

theorem ill03 : Statement .ill03 := ⟨rfl, rfl⟩

theorem ill04 : Statement .ill04 := ⟨rfl, rfl⟩

theorem ill07 : Statement .ill07 := ⟨rfl, rfl⟩

theorem ill0B : Statement .ill0B := ⟨rfl, rfl⟩

theorem ill0C : Statement .ill0C := ⟨rfl, rfl⟩

theorem ill0F : Statement .ill0F := ⟨rfl, rfl⟩

theorem ill12 : Statement .ill12 := ⟨rfl, rfl⟩

theorem ill13 : Statement .ill13 := ⟨rfl, rfl⟩

theorem ill14 : Statement .ill14 := ⟨rfl, rfl⟩

theorem ill17 : Statement .ill17 := ⟨rfl, rfl⟩

theorem ill1A : Statement .ill1A := ⟨rfl, rfl⟩

theorem ill1B : Statement .ill1B := ⟨rfl, rfl⟩

theorem ill1C : Statement .ill1C := ⟨rfl, rfl⟩

theorem ill1F : Statement .ill1F := ⟨rfl, rfl⟩

theorem ill22 : Statement .ill22 := ⟨rfl, rfl⟩

theorem ill23 : Statement .ill23 := ⟨rfl, rfl⟩

theorem ill27 : Statement .ill27 := ⟨rfl, rfl⟩

theorem ill2B : Statement .ill2B := ⟨rfl, rfl⟩

theorem ill2F : Statement .ill2F := ⟨rfl, rfl⟩

theorem ill32 : Statement .ill32 := ⟨rfl, rfl⟩

theorem ill33 : Statement .ill33 := ⟨rfl, rfl⟩

theorem ill34 : Statement .ill34 := ⟨rfl, rfl⟩

theorem ill37 : Statement .ill37 := ⟨rfl, rfl⟩

theorem ill3A : Statement .ill3A := ⟨rfl, rfl⟩

theorem ill3B : Statement .ill3B := ⟨rfl, rfl⟩

theorem ill3C : Statement .ill3C := ⟨rfl, rfl⟩

theorem ill3F : Statement .ill3F := ⟨rfl, rfl⟩

theorem ill42 : Statement .ill42 := ⟨rfl, rfl⟩

theorem ill43 : Statement .ill43 := ⟨rfl, rfl⟩

theorem ill44 : Statement .ill44 := ⟨rfl, rfl⟩

theorem ill47 : Statement .ill47 := ⟨rfl, rfl⟩

theorem ill4B : Statement .ill4B := ⟨rfl, rfl⟩

theorem ill4F : Statement .ill4F := ⟨rfl, rfl⟩

theorem ill52 : Statement .ill52 := ⟨rfl, rfl⟩

theorem ill53 : Statement .ill53 := ⟨rfl, rfl⟩

theorem ill54 : Statement .ill54 := ⟨rfl, rfl⟩

theorem ill57 : Statement .ill57 := ⟨rfl, rfl⟩

theorem ill5A : Statement .ill5A := ⟨rfl, rfl⟩

theorem ill5B : Statement .ill5B := ⟨rfl, rfl⟩

theorem ill5C : Statement .ill5C := ⟨rfl, rfl⟩

theorem ill5F : Statement .ill5F := ⟨rfl, rfl⟩

theorem ill62 : Statement .ill62 := ⟨rfl, rfl⟩

theorem ill63 : Statement .ill63 := ⟨rfl, rfl⟩

theorem ill64 : Statement .ill64 := ⟨rfl, rfl⟩

theorem ill67 : Statement .ill67 := ⟨rfl, rfl⟩

theorem ill6B : Statement .ill6B := ⟨rfl, rfl⟩

theorem ill6F : Statement .ill6F := ⟨rfl, rfl⟩

theorem ill72 : Statement .ill72 := ⟨rfl, rfl⟩

theorem ill73 : Statement .ill73 := ⟨rfl, rfl⟩

theorem ill74 : Statement .ill74 := ⟨rfl, rfl⟩

theorem ill77 : Statement .ill77 := ⟨rfl, rfl⟩

theorem ill7A : Statement .ill7A := ⟨rfl, rfl⟩

theorem ill7B : Statement .ill7B := ⟨rfl, rfl⟩

theorem ill7C : Statement .ill7C := ⟨rfl, rfl⟩

theorem ill7F : Statement .ill7F := ⟨rfl, rfl⟩

theorem ill80 : Statement .ill80 := ⟨rfl, rfl⟩

theorem ill82 : Statement .ill82 := ⟨rfl, rfl⟩

theorem ill83 : Statement .ill83 := ⟨rfl, rfl⟩

theorem ill87 : Statement .ill87 := ⟨rfl, rfl⟩

theorem ill89 : Statement .ill89 := ⟨rfl, rfl⟩

theorem ill8B : Statement .ill8B := ⟨rfl, rfl⟩

theorem ill8F : Statement .ill8F := ⟨rfl, rfl⟩

theorem ill92 : Statement .ill92 := ⟨rfl, rfl⟩

theorem ill93 : Statement .ill93 := ⟨rfl, rfl⟩

theorem ill97 : Statement .ill97 := ⟨rfl, rfl⟩

theorem ill9B : Statement .ill9B := ⟨rfl, rfl⟩

theorem ill9C : Statement .ill9C := ⟨rfl, rfl⟩

theorem ill9E : Statement .ill9E := ⟨rfl, rfl⟩

theorem ill9F : Statement .ill9F := ⟨rfl, rfl⟩

theorem illA3 : Statement .illA3 := ⟨rfl, rfl⟩

theorem illA7 : Statement .illA7 := ⟨rfl, rfl⟩

theorem illAB : Statement .illAB := ⟨rfl, rfl⟩

theorem illAF : Statement .illAF := ⟨rfl, rfl⟩

theorem illB2 : Statement .illB2 := ⟨rfl, rfl⟩

theorem illB3 : Statement .illB3 := ⟨rfl, rfl⟩

theorem illB7 : Statement .illB7 := ⟨rfl, rfl⟩

theorem illBB : Statement .illBB := ⟨rfl, rfl⟩

theorem illBF : Statement .illBF := ⟨rfl, rfl⟩

theorem illC2 : Statement .illC2 := ⟨rfl, rfl⟩

theorem illC3 : Statement .illC3 := ⟨rfl, rfl⟩

theorem illC7 : Statement .illC7 := ⟨rfl, rfl⟩

theorem illCB : Statement .illCB := ⟨rfl, rfl⟩

theorem illCF : Statement .illCF := ⟨rfl, rfl⟩

theorem illD2 : Statement .illD2 := ⟨rfl, rfl⟩

theorem illD3 : Statement .illD3 := ⟨rfl, rfl⟩

theorem illD4 : Statement .illD4 := ⟨rfl, rfl⟩

theorem illD7 : Statement .illD7 := ⟨rfl, rfl⟩

theorem illDA : Statement .illDA := ⟨rfl, rfl⟩

theorem illDB : Statement .illDB := ⟨rfl, rfl⟩

theorem illDC : Statement .illDC := ⟨rfl, rfl⟩

theorem illDF : Statement .illDF := ⟨rfl, rfl⟩

theorem illE2 : Statement .illE2 := ⟨rfl, rfl⟩

theorem illE3 : Statement .illE3 := ⟨rfl, rfl⟩

theorem illE7 : Statement .illE7 := ⟨rfl, rfl⟩

theorem illEB : Statement .illEB := ⟨rfl, rfl⟩

theorem illEF : Statement .illEF := ⟨rfl, rfl⟩

theorem illF2 : Statement .illF2 := ⟨rfl, rfl⟩

theorem illF3 : Statement .illF3 := ⟨rfl, rfl⟩

theorem illF4 : Statement .illF4 := ⟨rfl, rfl⟩

theorem illF7 : Statement .illF7 := ⟨rfl, rfl⟩

theorem illFA : Statement .illFA := ⟨rfl, rfl⟩

theorem illFB : Statement .illFB := ⟨rfl, rfl⟩

theorem illFC : Statement .illFC := ⟨rfl, rfl⟩

theorem illFF : Statement .illFF := ⟨rfl, rfl⟩

/-- Every instruction has the encoded form the map gives it. -/
theorem all (i : Instr) : Statement i := by
  cases i
  case brk => exact brk
  case oraIzx p => exact oraIzx p
  case oraZp p => exact oraZp p
  case aslZp p => exact aslZp p
  case php => exact php
  case oraImm v => exact oraImm v
  case aslAcc => exact aslAcc
  case oraAbs addr => exact oraAbs addr
  case aslAbs addr => exact aslAbs addr
  case bpl d => exact bpl d
  case oraIzy p => exact oraIzy p
  case oraZpx p => exact oraZpx p
  case aslZpx p => exact aslZpx p
  case clc => exact clc
  case oraAby base => exact oraAby base
  case oraAbx base => exact oraAbx base
  case aslAbx base => exact aslAbx base
  case jsr addr => exact jsr addr
  case andIzx p => exact andIzx p
  case bitZp p => exact bitZp p
  case andZp p => exact andZp p
  case rolZp p => exact rolZp p
  case plp => exact plp
  case andImm v => exact andImm v
  case rolAcc => exact rolAcc
  case bitAbs addr => exact bitAbs addr
  case andAbs addr => exact andAbs addr
  case rolAbs addr => exact rolAbs addr
  case bmi d => exact bmi d
  case andIzy p => exact andIzy p
  case andZpx p => exact andZpx p
  case rolZpx p => exact rolZpx p
  case sec => exact sec
  case andAby base => exact andAby base
  case andAbx base => exact andAbx base
  case rolAbx base => exact rolAbx base
  case rti => exact rti
  case eorIzx p => exact eorIzx p
  case eorZp p => exact eorZp p
  case lsrZp p => exact lsrZp p
  case pha => exact pha
  case eorImm v => exact eorImm v
  case lsrAcc => exact lsrAcc
  case jmpAbs addr => exact jmpAbs addr
  case eorAbs addr => exact eorAbs addr
  case lsrAbs addr => exact lsrAbs addr
  case bvc d => exact bvc d
  case eorIzy p => exact eorIzy p
  case eorZpx p => exact eorZpx p
  case lsrZpx p => exact lsrZpx p
  case cli => exact cli
  case eorAby base => exact eorAby base
  case eorAbx base => exact eorAbx base
  case lsrAbx base => exact lsrAbx base
  case rts => exact rts
  case adcIzx p => exact adcIzx p
  case adcZp p => exact adcZp p
  case rorZp p => exact rorZp p
  case pla => exact pla
  case adcImm v => exact adcImm v
  case rorAcc => exact rorAcc
  case jmpInd ptr => exact jmpInd ptr
  case adcAbs addr => exact adcAbs addr
  case rorAbs addr => exact rorAbs addr
  case bvs d => exact bvs d
  case adcIzy p => exact adcIzy p
  case adcZpx p => exact adcZpx p
  case rorZpx p => exact rorZpx p
  case sei => exact sei
  case adcAby base => exact adcAby base
  case adcAbx base => exact adcAbx base
  case rorAbx base => exact rorAbx base
  case staIzx p => exact staIzx p
  case styZp p => exact styZp p
  case staZp p => exact staZp p
  case stxZp p => exact stxZp p
  case dey => exact dey
  case txa => exact txa
  case styAbs addr => exact styAbs addr
  case staAbs addr => exact staAbs addr
  case stxAbs addr => exact stxAbs addr
  case bcc d => exact bcc d
  case staIzy p => exact staIzy p
  case styZpx p => exact styZpx p
  case staZpx p => exact staZpx p
  case stxZpy p => exact stxZpy p
  case tya => exact tya
  case staAby base => exact staAby base
  case txs => exact txs
  case staAbx base => exact staAbx base
  case ldyImm v => exact ldyImm v
  case ldaIzx p => exact ldaIzx p
  case ldxImm v => exact ldxImm v
  case ldyZp p => exact ldyZp p
  case ldaZp p => exact ldaZp p
  case ldxZp p => exact ldxZp p
  case tay => exact tay
  case ldaImm v => exact ldaImm v
  case tax => exact tax
  case ldyAbs addr => exact ldyAbs addr
  case ldaAbs addr => exact ldaAbs addr
  case ldxAbs addr => exact ldxAbs addr
  case bcs d => exact bcs d
  case ldaIzy p => exact ldaIzy p
  case ldyZpx p => exact ldyZpx p
  case ldaZpx p => exact ldaZpx p
  case ldxZpy p => exact ldxZpy p
  case clv => exact clv
  case ldaAby base => exact ldaAby base
  case tsx => exact tsx
  case ldyAbx base => exact ldyAbx base
  case ldaAbx base => exact ldaAbx base
  case ldxAby base => exact ldxAby base
  case cpyImm v => exact cpyImm v
  case cmpIzx p => exact cmpIzx p
  case cpyZp p => exact cpyZp p
  case cmpZp p => exact cmpZp p
  case decZp p => exact decZp p
  case iny => exact iny
  case cmpImm v => exact cmpImm v
  case dex => exact dex
  case cpyAbs addr => exact cpyAbs addr
  case cmpAbs addr => exact cmpAbs addr
  case decAbs addr => exact decAbs addr
  case bne d => exact bne d
  case cmpIzy p => exact cmpIzy p
  case cmpZpx p => exact cmpZpx p
  case decZpx p => exact decZpx p
  case cld => exact cld
  case cmpAby base => exact cmpAby base
  case cmpAbx base => exact cmpAbx base
  case decAbx base => exact decAbx base
  case cpxImm v => exact cpxImm v
  case sbcIzx p => exact sbcIzx p
  case cpxZp p => exact cpxZp p
  case sbcZp p => exact sbcZp p
  case incZp p => exact incZp p
  case inx => exact inx
  case sbcImm v => exact sbcImm v
  case nop => exact nop
  case cpxAbs addr => exact cpxAbs addr
  case sbcAbs addr => exact sbcAbs addr
  case incAbs addr => exact incAbs addr
  case beq d => exact beq d
  case sbcIzy p => exact sbcIzy p
  case sbcZpx p => exact sbcZpx p
  case incZpx p => exact incZpx p
  case sed => exact sed
  case sbcAby base => exact sbcAby base
  case sbcAbx base => exact sbcAbx base
  case incAbx base => exact incAbx base
  case ill02 => exact ill02
  case ill03 => exact ill03
  case ill04 => exact ill04
  case ill07 => exact ill07
  case ill0B => exact ill0B
  case ill0C => exact ill0C
  case ill0F => exact ill0F
  case ill12 => exact ill12
  case ill13 => exact ill13
  case ill14 => exact ill14
  case ill17 => exact ill17
  case ill1A => exact ill1A
  case ill1B => exact ill1B
  case ill1C => exact ill1C
  case ill1F => exact ill1F
  case ill22 => exact ill22
  case ill23 => exact ill23
  case ill27 => exact ill27
  case ill2B => exact ill2B
  case ill2F => exact ill2F
  case ill32 => exact ill32
  case ill33 => exact ill33
  case ill34 => exact ill34
  case ill37 => exact ill37
  case ill3A => exact ill3A
  case ill3B => exact ill3B
  case ill3C => exact ill3C
  case ill3F => exact ill3F
  case ill42 => exact ill42
  case ill43 => exact ill43
  case ill44 => exact ill44
  case ill47 => exact ill47
  case ill4B => exact ill4B
  case ill4F => exact ill4F
  case ill52 => exact ill52
  case ill53 => exact ill53
  case ill54 => exact ill54
  case ill57 => exact ill57
  case ill5A => exact ill5A
  case ill5B => exact ill5B
  case ill5C => exact ill5C
  case ill5F => exact ill5F
  case ill62 => exact ill62
  case ill63 => exact ill63
  case ill64 => exact ill64
  case ill67 => exact ill67
  case ill6B => exact ill6B
  case ill6F => exact ill6F
  case ill72 => exact ill72
  case ill73 => exact ill73
  case ill74 => exact ill74
  case ill77 => exact ill77
  case ill7A => exact ill7A
  case ill7B => exact ill7B
  case ill7C => exact ill7C
  case ill7F => exact ill7F
  case ill80 => exact ill80
  case ill82 => exact ill82
  case ill83 => exact ill83
  case ill87 => exact ill87
  case ill89 => exact ill89
  case ill8B => exact ill8B
  case ill8F => exact ill8F
  case ill92 => exact ill92
  case ill93 => exact ill93
  case ill97 => exact ill97
  case ill9B => exact ill9B
  case ill9C => exact ill9C
  case ill9E => exact ill9E
  case ill9F => exact ill9F
  case illA3 => exact illA3
  case illA7 => exact illA7
  case illAB => exact illAB
  case illAF => exact illAF
  case illB2 => exact illB2
  case illB3 => exact illB3
  case illB7 => exact illB7
  case illBB => exact illBB
  case illBF => exact illBF
  case illC2 => exact illC2
  case illC3 => exact illC3
  case illC7 => exact illC7
  case illCB => exact illCB
  case illCF => exact illCF
  case illD2 => exact illD2
  case illD3 => exact illD3
  case illD4 => exact illD4
  case illD7 => exact illD7
  case illDA => exact illDA
  case illDB => exact illDB
  case illDC => exact illDC
  case illDF => exact illDF
  case illE2 => exact illE2
  case illE3 => exact illE3
  case illE7 => exact illE7
  case illEB => exact illEB
  case illEF => exact illEF
  case illF2 => exact illF2
  case illF3 => exact illF3
  case illF4 => exact illF4
  case illF7 => exact illF7
  case illFA => exact illFA
  case illFB => exact illFB
  case illFC => exact illFC
  case illFF => exact illFF

end Sys2Proof.Laws.EncodedForm
end

