-- ==== Sys2Proof/Tests/Slice0.lean ====
section
/-! SUPPORT. The model's own tests: words decoded from the spec's encodings, the checks that refuse ill-formed terms, the worked
examples of 41 to 46, 60 and 70 run for one step each, and for every obligation with hypotheses a concrete case that
meets them. -/

namespace Sys2Proof.Machine.Tests

/-! ### Decoding (30_encoding.md R122, R124): each word is written out from the spec's encoding -/

theorem test_decode_lda_imm : decode [0xA9, 0x00] = .ok (.ldaImm 0x00, []) := rfl

theorem test_decode_ldx_zpy : decode [0xB6, 0x7F] = .ok (.ldxZpy 0x7F, []) := rfl

theorem test_decode_sta_izx : decode [0x81, 0x20] = .ok (.staIzx 0x20, []) := rfl

theorem test_decode_adc_izy : decode [0x71, 0x80] = .ok (.adcIzy 0x80, []) := rfl

theorem test_decode_sbc_aby : decode [0xF9, 0x34, 0x12] = .ok (.sbcAby 0x1234, []) := rfl

theorem test_decode_cpy_abs : decode [0xCC, 0x01, 0xC0] = .ok (.cpyAbs 0xC001, []) := rfl

theorem test_decode_inc_abx : decode [0xFE, 0xFF, 0x20] = .ok (.incAbx 0x20FF, []) := rfl

theorem test_decode_eor_zpx : decode [0x55, 0x0F] = .ok (.eorZpx 0x0F, []) := rfl

theorem test_decode_ror_acc : decode [0x6A] = .ok (.rorAcc, []) := rfl

theorem test_decode_bit_zp : decode [0x24, 0x10] = .ok (.bitZp 0x10, []) := rfl

theorem test_decode_bvs_rel : decode [0x70, 0x80] = .ok (.bvs 0x80, []) := rfl

theorem test_decode_jmp_ind : decode [0x6C, 0xFF, 0x02] = .ok (.jmpInd 0x02FF, []) := rfl

theorem test_decode_jsr_abs : decode [0x20, 0x34, 0x12] = .ok (.jsr 0x1234, []) := rfl

theorem test_decode_plp : decode [0x28] = .ok (.plp, []) := rfl

theorem test_decode_cld : decode [0xD8] = .ok (.cld, []) := rfl

theorem test_decode_undocumented_80 : decode [0x80] = .ok (.ill80, []) := rfl

/-! Every opcode byte with the operand bytes 0x34 and 0x12, row by row of spec/opcode_table.json, and the cycle counts of 70 R366. -/

theorem test_opcode_row_0 :
    ((List.range 16).map fun k => decodeTableWord 24 (0x123400 + k)) =
      [some .brk, some (.oraIzx 0x34), some .ill02, some .ill03,
      some .ill04, some (.oraZp 0x34), some (.aslZp 0x34), some .ill07,
      some .php, some (.oraImm 0x34), some .aslAcc, some .ill0B,
      some .ill0C, some (.oraAbs 0x1234), some (.aslAbs 0x1234), some .ill0F] ∧
    ((List.range 16).map fun k => (opcodeRow (BitVec.ofNat 8 (0x00 + k))).cycles) =
      [7, 6, 7, 7, 7, 3, 5, 7, 3, 2, 2, 7, 7, 4, 6, 7] ∧
    (((List.range 16).map fun k => BitVec.ofNat 8 (0x00 + k)).filter fun b => (opcodeRow b).pageCross) = [] :=
  ⟨rfl, rfl, rfl⟩

theorem test_opcode_row_1 :
    ((List.range 16).map fun k => decodeTableWord 24 (0x123410 + k)) =
      [some (.bpl 0x34), some (.oraIzy 0x34), some .ill12, some .ill13,
      some .ill14, some (.oraZpx 0x34), some (.aslZpx 0x34), some .ill17,
      some .clc, some (.oraAby 0x1234), some .ill1A, some .ill1B,
      some .ill1C, some (.oraAbx 0x1234), some (.aslAbx 0x1234), some .ill1F] ∧
    ((List.range 16).map fun k => (opcodeRow (BitVec.ofNat 8 (0x10 + k))).cycles) =
      [2, 5, 7, 7, 7, 4, 6, 7, 2, 4, 7, 7, 7, 4, 7, 7] ∧
    (((List.range 16).map fun k => BitVec.ofNat 8 (0x10 + k)).filter fun b => (opcodeRow b).pageCross) = [0x11, 0x19, 0x1D] :=
  ⟨rfl, rfl, rfl⟩

theorem test_opcode_row_2 :
    ((List.range 16).map fun k => decodeTableWord 24 (0x123420 + k)) =
      [some (.jsr 0x1234), some (.andIzx 0x34), some .ill22, some .ill23,
      some (.bitZp 0x34), some (.andZp 0x34), some (.rolZp 0x34), some .ill27,
      some .plp, some (.andImm 0x34), some .rolAcc, some .ill2B,
      some (.bitAbs 0x1234), some (.andAbs 0x1234), some (.rolAbs 0x1234), some .ill2F] ∧
    ((List.range 16).map fun k => (opcodeRow (BitVec.ofNat 8 (0x20 + k))).cycles) =
      [6, 6, 7, 7, 3, 3, 5, 7, 4, 2, 2, 7, 4, 4, 6, 7] ∧
    (((List.range 16).map fun k => BitVec.ofNat 8 (0x20 + k)).filter fun b => (opcodeRow b).pageCross) = [] :=
  ⟨rfl, rfl, rfl⟩

theorem test_opcode_row_3 :
    ((List.range 16).map fun k => decodeTableWord 24 (0x123430 + k)) =
      [some (.bmi 0x34), some (.andIzy 0x34), some .ill32, some .ill33,
      some .ill34, some (.andZpx 0x34), some (.rolZpx 0x34), some .ill37,
      some .sec, some (.andAby 0x1234), some .ill3A, some .ill3B,
      some .ill3C, some (.andAbx 0x1234), some (.rolAbx 0x1234), some .ill3F] ∧
    ((List.range 16).map fun k => (opcodeRow (BitVec.ofNat 8 (0x30 + k))).cycles) =
      [2, 5, 7, 7, 7, 4, 6, 7, 2, 4, 7, 7, 7, 4, 7, 7] ∧
    (((List.range 16).map fun k => BitVec.ofNat 8 (0x30 + k)).filter fun b => (opcodeRow b).pageCross) = [0x31, 0x39, 0x3D] :=
  ⟨rfl, rfl, rfl⟩

theorem test_opcode_row_4 :
    ((List.range 16).map fun k => decodeTableWord 24 (0x123440 + k)) =
      [some .rti, some (.eorIzx 0x34), some .ill42, some .ill43,
      some .ill44, some (.eorZp 0x34), some (.lsrZp 0x34), some .ill47,
      some .pha, some (.eorImm 0x34), some .lsrAcc, some .ill4B,
      some (.jmpAbs 0x1234), some (.eorAbs 0x1234), some (.lsrAbs 0x1234), some .ill4F] ∧
    ((List.range 16).map fun k => (opcodeRow (BitVec.ofNat 8 (0x40 + k))).cycles) =
      [6, 6, 7, 7, 7, 3, 5, 7, 3, 2, 2, 7, 3, 4, 6, 7] ∧
    (((List.range 16).map fun k => BitVec.ofNat 8 (0x40 + k)).filter fun b => (opcodeRow b).pageCross) = [] :=
  ⟨rfl, rfl, rfl⟩

theorem test_opcode_row_5 :
    ((List.range 16).map fun k => decodeTableWord 24 (0x123450 + k)) =
      [some (.bvc 0x34), some (.eorIzy 0x34), some .ill52, some .ill53,
      some .ill54, some (.eorZpx 0x34), some (.lsrZpx 0x34), some .ill57,
      some .cli, some (.eorAby 0x1234), some .ill5A, some .ill5B,
      some .ill5C, some (.eorAbx 0x1234), some (.lsrAbx 0x1234), some .ill5F] ∧
    ((List.range 16).map fun k => (opcodeRow (BitVec.ofNat 8 (0x50 + k))).cycles) =
      [2, 5, 7, 7, 7, 4, 6, 7, 2, 4, 7, 7, 7, 4, 7, 7] ∧
    (((List.range 16).map fun k => BitVec.ofNat 8 (0x50 + k)).filter fun b => (opcodeRow b).pageCross) = [0x51, 0x59, 0x5D] :=
  ⟨rfl, rfl, rfl⟩

theorem test_opcode_row_6 :
    ((List.range 16).map fun k => decodeTableWord 24 (0x123460 + k)) =
      [some .rts, some (.adcIzx 0x34), some .ill62, some .ill63,
      some .ill64, some (.adcZp 0x34), some (.rorZp 0x34), some .ill67,
      some .pla, some (.adcImm 0x34), some .rorAcc, some .ill6B,
      some (.jmpInd 0x1234), some (.adcAbs 0x1234), some (.rorAbs 0x1234), some .ill6F] ∧
    ((List.range 16).map fun k => (opcodeRow (BitVec.ofNat 8 (0x60 + k))).cycles) =
      [6, 6, 7, 7, 7, 3, 5, 7, 4, 2, 2, 7, 5, 4, 6, 7] ∧
    (((List.range 16).map fun k => BitVec.ofNat 8 (0x60 + k)).filter fun b => (opcodeRow b).pageCross) = [] :=
  ⟨rfl, rfl, rfl⟩

theorem test_opcode_row_7 :
    ((List.range 16).map fun k => decodeTableWord 24 (0x123470 + k)) =
      [some (.bvs 0x34), some (.adcIzy 0x34), some .ill72, some .ill73,
      some .ill74, some (.adcZpx 0x34), some (.rorZpx 0x34), some .ill77,
      some .sei, some (.adcAby 0x1234), some .ill7A, some .ill7B,
      some .ill7C, some (.adcAbx 0x1234), some (.rorAbx 0x1234), some .ill7F] ∧
    ((List.range 16).map fun k => (opcodeRow (BitVec.ofNat 8 (0x70 + k))).cycles) =
      [2, 5, 7, 7, 7, 4, 6, 7, 2, 4, 7, 7, 7, 4, 7, 7] ∧
    (((List.range 16).map fun k => BitVec.ofNat 8 (0x70 + k)).filter fun b => (opcodeRow b).pageCross) = [0x71, 0x79, 0x7D] :=
  ⟨rfl, rfl, rfl⟩

theorem test_opcode_row_8 :
    ((List.range 16).map fun k => decodeTableWord 24 (0x123480 + k)) =
      [some .ill80, some (.staIzx 0x34), some .ill82, some .ill83,
      some (.styZp 0x34), some (.staZp 0x34), some (.stxZp 0x34), some .ill87,
      some .dey, some .ill89, some .txa, some .ill8B,
      some (.styAbs 0x1234), some (.staAbs 0x1234), some (.stxAbs 0x1234), some .ill8F] ∧
    ((List.range 16).map fun k => (opcodeRow (BitVec.ofNat 8 (0x80 + k))).cycles) =
      [7, 6, 7, 7, 3, 3, 3, 7, 2, 7, 2, 7, 4, 4, 4, 7] ∧
    (((List.range 16).map fun k => BitVec.ofNat 8 (0x80 + k)).filter fun b => (opcodeRow b).pageCross) = [] :=
  ⟨rfl, rfl, rfl⟩

theorem test_opcode_row_9 :
    ((List.range 16).map fun k => decodeTableWord 24 (0x123490 + k)) =
      [some (.bcc 0x34), some (.staIzy 0x34), some .ill92, some .ill93,
      some (.styZpx 0x34), some (.staZpx 0x34), some (.stxZpy 0x34), some .ill97,
      some .tya, some (.staAby 0x1234), some .txs, some .ill9B,
      some .ill9C, some (.staAbx 0x1234), some .ill9E, some .ill9F] ∧
    ((List.range 16).map fun k => (opcodeRow (BitVec.ofNat 8 (0x90 + k))).cycles) =
      [2, 6, 7, 7, 4, 4, 4, 7, 2, 5, 2, 7, 7, 5, 7, 7] ∧
    (((List.range 16).map fun k => BitVec.ofNat 8 (0x90 + k)).filter fun b => (opcodeRow b).pageCross) = [] :=
  ⟨rfl, rfl, rfl⟩

theorem test_opcode_row_A :
    ((List.range 16).map fun k => decodeTableWord 24 (0x1234A0 + k)) =
      [some (.ldyImm 0x34), some (.ldaIzx 0x34), some (.ldxImm 0x34), some .illA3,
      some (.ldyZp 0x34), some (.ldaZp 0x34), some (.ldxZp 0x34), some .illA7,
      some .tay, some (.ldaImm 0x34), some .tax, some .illAB,
      some (.ldyAbs 0x1234), some (.ldaAbs 0x1234), some (.ldxAbs 0x1234), some .illAF] ∧
    ((List.range 16).map fun k => (opcodeRow (BitVec.ofNat 8 (0xA0 + k))).cycles) =
      [2, 6, 2, 7, 3, 3, 3, 7, 2, 2, 2, 7, 4, 4, 4, 7] ∧
    (((List.range 16).map fun k => BitVec.ofNat 8 (0xA0 + k)).filter fun b => (opcodeRow b).pageCross) = [] :=
  ⟨rfl, rfl, rfl⟩

theorem test_opcode_row_B :
    ((List.range 16).map fun k => decodeTableWord 24 (0x1234B0 + k)) =
      [some (.bcs 0x34), some (.ldaIzy 0x34), some .illB2, some .illB3,
      some (.ldyZpx 0x34), some (.ldaZpx 0x34), some (.ldxZpy 0x34), some .illB7,
      some .clv, some (.ldaAby 0x1234), some .tsx, some .illBB,
      some (.ldyAbx 0x1234), some (.ldaAbx 0x1234), some (.ldxAby 0x1234), some .illBF] ∧
    ((List.range 16).map fun k => (opcodeRow (BitVec.ofNat 8 (0xB0 + k))).cycles) =
      [2, 5, 7, 7, 4, 4, 4, 7, 2, 4, 2, 7, 4, 4, 4, 7] ∧
    (((List.range 16).map fun k => BitVec.ofNat 8 (0xB0 + k)).filter fun b => (opcodeRow b).pageCross) = [0xB1, 0xB9, 0xBC, 0xBD, 0xBE] :=
  ⟨rfl, rfl, rfl⟩

theorem test_opcode_row_C :
    ((List.range 16).map fun k => decodeTableWord 24 (0x1234C0 + k)) =
      [some (.cpyImm 0x34), some (.cmpIzx 0x34), some .illC2, some .illC3,
      some (.cpyZp 0x34), some (.cmpZp 0x34), some (.decZp 0x34), some .illC7,
      some .iny, some (.cmpImm 0x34), some .dex, some .illCB,
      some (.cpyAbs 0x1234), some (.cmpAbs 0x1234), some (.decAbs 0x1234), some .illCF] ∧
    ((List.range 16).map fun k => (opcodeRow (BitVec.ofNat 8 (0xC0 + k))).cycles) =
      [2, 6, 7, 7, 3, 3, 5, 7, 2, 2, 2, 7, 4, 4, 6, 7] ∧
    (((List.range 16).map fun k => BitVec.ofNat 8 (0xC0 + k)).filter fun b => (opcodeRow b).pageCross) = [] :=
  ⟨rfl, rfl, rfl⟩

theorem test_opcode_row_D :
    ((List.range 16).map fun k => decodeTableWord 24 (0x1234D0 + k)) =
      [some (.bne 0x34), some (.cmpIzy 0x34), some .illD2, some .illD3,
      some .illD4, some (.cmpZpx 0x34), some (.decZpx 0x34), some .illD7,
      some .cld, some (.cmpAby 0x1234), some .illDA, some .illDB,
      some .illDC, some (.cmpAbx 0x1234), some (.decAbx 0x1234), some .illDF] ∧
    ((List.range 16).map fun k => (opcodeRow (BitVec.ofNat 8 (0xD0 + k))).cycles) =
      [2, 5, 7, 7, 7, 4, 6, 7, 2, 4, 7, 7, 7, 4, 7, 7] ∧
    (((List.range 16).map fun k => BitVec.ofNat 8 (0xD0 + k)).filter fun b => (opcodeRow b).pageCross) = [0xD1, 0xD9, 0xDD] :=
  ⟨rfl, rfl, rfl⟩

theorem test_opcode_row_E :
    ((List.range 16).map fun k => decodeTableWord 24 (0x1234E0 + k)) =
      [some (.cpxImm 0x34), some (.sbcIzx 0x34), some .illE2, some .illE3,
      some (.cpxZp 0x34), some (.sbcZp 0x34), some (.incZp 0x34), some .illE7,
      some .inx, some (.sbcImm 0x34), some .nop, some .illEB,
      some (.cpxAbs 0x1234), some (.sbcAbs 0x1234), some (.incAbs 0x1234), some .illEF] ∧
    ((List.range 16).map fun k => (opcodeRow (BitVec.ofNat 8 (0xE0 + k))).cycles) =
      [2, 6, 7, 7, 3, 3, 5, 7, 2, 2, 2, 7, 4, 4, 6, 7] ∧
    (((List.range 16).map fun k => BitVec.ofNat 8 (0xE0 + k)).filter fun b => (opcodeRow b).pageCross) = [] :=
  ⟨rfl, rfl, rfl⟩

theorem test_opcode_row_F :
    ((List.range 16).map fun k => decodeTableWord 24 (0x1234F0 + k)) =
      [some (.beq 0x34), some (.sbcIzy 0x34), some .illF2, some .illF3,
      some .illF4, some (.sbcZpx 0x34), some (.incZpx 0x34), some .illF7,
      some .sed, some (.sbcAby 0x1234), some .illFA, some .illFB,
      some .illFC, some (.sbcAbx 0x1234), some (.incAbx 0x1234), some .illFF] ∧
    ((List.range 16).map fun k => (opcodeRow (BitVec.ofNat 8 (0xF0 + k))).cycles) =
      [2, 5, 7, 7, 7, 4, 6, 7, 2, 4, 7, 7, 7, 4, 7, 7] ∧
    (((List.range 16).map fun k => BitVec.ofNat 8 (0xF0 + k)).filter fun b => (opcodeRow b).pageCross) = [0xF1, 0xF9, 0xFD] :=
  ⟨rfl, rfl, rfl⟩

theorem test_decode_brk_is_one_byte : decode [0x00, 0x77] = .ok (.brk, [0x77]) := rfl

theorem test_decode_no_opcode : decode [] = .error .noOpcode := rfl

theorem test_decode_missing_operand : decode [0xAD, 0x00] = .error (.missingOperand 0xAD) := rfl

theorem test_decode_table_word : decodeTableWord 24 0x1234CE = some (.decAbs 0x1234) := rfl

theorem test_decode_table_word_short : decodeTableWord 8 0xFF6C = some (.jmpInd 0x0000) := rfl

theorem test_assemble_branch : branchDisplacement 0x0305 0x0300 = some 0xF9 := by decide

theorem test_assemble_out_of_reach : branchDisplacement 0x0305 0x0400 = none := by decide

theorem test_assemble_ldx_zpy : assemble (.instr .ldx .zpy 0x7F) = some [0xB6, 0x7F] := rfl

/-! ### Well-formedness: an ill-formed term for each check -/

theorem test_wf_store_immediate : (AsmStatement.instr .sta .imm 0x10).wf = false := by decide

theorem test_wf_undocumented_mnemonic : (AsmStatement.instr .ill .imp 0).wf = false := by decide

theorem test_wf_operand_too_wide : (AsmStatement.instr .lda .zp 0x100).wf = false := by decide

theorem test_wf_word_too_wide : (AsmStatement.instr .lda .abs 0x10000).wf = false := rfl

theorem test_wf_implied_with_operand : (AsmStatement.instr .tax .imp 1).wf = false := by decide

theorem test_wf_byte_too_wide : (AsmStatement.byte 256).wf = false := by decide

theorem test_wf_ill_formed_assembles_to_nothing : assemble (.instr .sta .imm 0x10) = none := by decide

theorem test_wf_statement : (AsmStatement.instr .lda .abs 0xFFFF).wf = true := by decide

theorem test_ram_size_refused : ({ defaultConfig with ramSize := 65537 } : Config).ramSizeOk = false := rfl

theorem test_ram_size_accepted : ({ defaultConfig with ramSize := 65536 } : Config).ramSizeOk = true := by decide

theorem test_rom_size_refused : defaultConfig.romImageOk 12288 = false := rfl

theorem test_rom_size_accepted : ({ defaultConfig with machine := .iiPlus } : Config).romImageOk 12288 = true := rfl

/-! ### One step of a small machine -/

/-- A machine at `pc` with these bytes in RAM, registers zero, S = 0xFF, flags clear and nothing logged. -/
def small (pc : Word) (cells : List Host.Cell) : State :=
  { State.reset with
    pc := pc
    sp := 0xFF
    p := ⟨false, false, false, false, false, false⟩
    ram := Memory.ofCells 131072 cells
    buslog := []
    cycles := 0 }

/-- The state a step answers, or the same state where it answers none. -/
def ran (s : State) : State :=
  match step s with
  | .next t => t
  | _ => s

/-- The bus cycles of a state: kind, address and value. -/
def trace (s : State) : List (BusKind × Word × Byte) := s.buslog.map fun e => (e.type, e.addr, e.value)

/-- The flags N, V, D, I, Z, C. -/
def flags (s : State) : List Bool := [s.p.n, s.p.v, s.p.d, s.p.i, s.p.z, s.p.c]

/-- 41 R180: LDA #$00 sets Z, 2 cycles. -/
theorem test_lda_imm :
    let t := ran ({ small 0x0300 [(0x300, 0xA9), (0x301, 0x00)] with a := 0x12 })
    t.a = 0x00 ∧ t.p.z = true ∧ t.p.n = false ∧ t.cycles = 2 ∧ t.pc = 0x0302 := by decide

/-- 41 R181: LDX $7F,Y. -/
theorem test_ldx_zpy :
    let t := ran ({ small 0x0300 [(0x84, 0x90), (0x300, 0xB6), (0x301, 0x7F)] with y := 0x05 })
    t.x = 0x90 ∧ t.p.n = true ∧ t.p.z = false ∧ t.cycles = 4 := by decide

/-- 41 R182: LDY #$80. -/
theorem test_ldy_imm :
    let t := ran (small 0x0300 [(0x300, 0xA0), (0x301, 0x80)])
    t.y = 0x80 ∧ t.p.n = true ∧ t.p.z = false := by decide

/-- 41 R183: STA $0400,X reads 0x0402 and then writes it. -/
theorem test_sta_abx :
    let t := ran ({ small 0x0300 [(0x300, 0x9D), (0x302, 0x04)] with a := 0x41, x := 0x02 })
    (trace t).drop 3 = [(.peek, 0x0402, 0x00), (.poke, 0x0402, 0x41)] ∧ t.cycles = 5 ∧ t.ram.read 0x402 = 0x41 := by decide

/-- 41 R184: STX $10. -/
theorem test_stx_zp :
    let t := ran ({ small 0x0300 [(0x300, 0x86), (0x301, 0x10)] with x := 0x07 })
    t.ram.read 0x10 = 0x07 ∧ t.cycles = 3 := by decide

/-- 41 R185: STY $FF,X wraps in page 0. -/
theorem test_sty_zpx :
    let t := ran ({ small 0x0300 [(0x300, 0x94), (0x301, 0xFF)] with y := 0x09, x := 0x01 })
    (trace t).drop 2 = [(.peek, 0x00FF, 0x00), (.poke, 0x0000, 0x09)] ∧ t.cycles = 4 := by decide

/-- 41 R186: TAX. -/
theorem test_tax :
    let t := ran ({ small 0x0300 [(0x300, 0xAA)] with a := 0xFF })
    t.x = 0xFF ∧ t.p.n = true ∧ t.p.z = false := by decide

/-- 41 R190: TSX. -/
theorem test_tsx :
    let t := ran ({ small 0x0300 [(0x300, 0xBA)] with sp := 0xFD })
    t.x = 0xFD ∧ t.p.n = true ∧ t.p.z = false := by decide

/-- 41 R191: TXS leaves the flags. -/
theorem test_txs :
    let t := ran ({ small 0x0300 [(0x300, 0x9A)] with x := 0x00 })
    t.sp = 0x00 ∧ flags t = [false, false, false, false, false, false] := by decide

/-- 42 R204: 58 + 46 + 1 in decimal. -/
theorem test_adc_decimal :
    let t := ran ({ small 0x0300 [(0x300, 0x69), (0x301, 0x46)] with a := 0x58, p := ⟨false, false, true, false, false, true⟩ })
    t.a = 0x05 ∧ t.p.c = true := by decide

/-- 42 R200: 0x50 + 0x50 leaves -128..127. -/
theorem test_adc_overflow :
    let t := ran ({ small 0x0300 [(0x300, 0x69), (0x301, 0x50)] with a := 0x50 })
    t.a = 0xA0 ∧ flags t = [true, true, false, false, false, false] := by decide

/-- 42 R207: 0x50 - 0x20. -/
theorem test_sbc :
    let t := ran ({ small 0x0300 [(0x300, 0xE9), (0x301, 0x20)] with a := 0x50, p := ⟨false, false, false, false, false, true⟩ })
    t.a = 0x30 ∧ flags t = [false, false, false, false, false, true] := by decide

/-- 42 R203: sbcDec(0x00, 0x01, 1). -/
theorem test_sbc_decimal :
    let t := ran ({ small 0x0300 [(0x300, 0xE9), (0x301, 0x01)] with p := ⟨false, false, true, false, false, true⟩ })
    t.a = 0x99 ∧ flags t = [true, false, true, false, false, false] := by decide

/-- 42 R209: CMP #$41. -/
theorem test_cmp_equal :
    let t := ran ({ small 0x0300 [(0x300, 0xC9), (0x301, 0x41)] with a := 0x41 })
    t.p.z = true ∧ t.p.c = true ∧ t.p.n = false := by decide

/-- 42 R210: CPX #$01. -/
theorem test_cpx_below :
    let t := ran (small 0x0300 [(0x300, 0xE0), (0x301, 0x01)])
    t.p.c = false ∧ t.p.z = false ∧ t.p.n = true := by decide

/-- 42 R212: INC $10 writes twice. -/
theorem test_inc_zp :
    let t := ran (small 0x0300 [(0x10, 0x7F), (0x300, 0xE6), (0x301, 0x10)])
    (trace t).drop 2 = [(.peek, 0x0010, 0x7F), (.poke, 0x0010, 0x7F), (.poke, 0x0010, 0x80)] ∧ t.p.n = true ∧ t.cycles = 5 := by decide

/-- 42 R213: DEC $1234. -/
theorem test_dec_abs :
    let t := ran (small 0x0300 [(0x300, 0xCE), (0x301, 0x34), (0x302, 0x12), (0x1234, 0x01)])
    t.ram.read 0x1234 = 0x00 ∧ t.p.z = true ∧ t.cycles = 6 := by decide

/-- 42 R215: INY. -/
theorem test_iny_wraps :
    let t := ran ({ small 0x0300 [(0x300, 0xC8)] with y := 0xFF })
    t.y = 0x00 ∧ t.p.z = true ∧ t.p.n = false := by decide

/-- 42 R216: DEX. -/
theorem test_dex_wraps :
    let t := ran (small 0x0300 [(0x300, 0xCA)])
    t.x = 0xFF ∧ t.p.n = true := by decide

/-- 43 R230: AND #$3C. -/
theorem test_and_imm :
    let t := ran ({ small 0x0300 [(0x300, 0x29), (0x301, 0x3C)] with a := 0xF0 })
    t.a = 0x30 ∧ t.p.n = false ∧ t.p.z = false := by decide

/-- 43 R232: EOR #$55. -/
theorem test_eor_imm :
    let t := ran ({ small 0x0300 [(0x300, 0x49), (0x301, 0x55)] with a := 0x55 })
    t.a = 0x00 ∧ t.p.z = true := by decide

/-- 43 R233: BIT $10. -/
theorem test_bit_zp :
    let t := ran ({ small 0x0300 [(0x10, 0xC0), (0x300, 0x24), (0x301, 0x10)] with a := 0x01 })
    t.p.z = true ∧ t.p.n = true ∧ t.p.v = true ∧ t.a = 0x01 := by decide

/-- 43 R234: ASL A. -/
theorem test_asl_acc :
    let t := ran ({ small 0x0300 [(0x300, 0x0A)] with a := 0x81 })
    t.a = 0x02 ∧ t.p.c = true ∧ t.p.n = false ∧ t.p.z = false := by decide

/-- 43 R235: LSR $20. -/
theorem test_lsr_zp :
    let t := ran (small 0x0300 [(0x20, 0x03), (0x300, 0x46), (0x301, 0x20)])
    (trace t).drop 2 = [(.peek, 0x0020, 0x03), (.poke, 0x0020, 0x03), (.poke, 0x0020, 0x01)] ∧ t.p.c = true := by decide

/-- 43 R236: ROL A. -/
theorem test_rol_acc :
    let t := ran ({ small 0x0300 [(0x300, 0x2A)] with a := 0x40, p := ⟨false, false, false, false, false, true⟩ })
    t.a = 0x81 ∧ t.p.c = false ∧ t.p.n = true := by decide

/-- 43 R237: ROR A. -/
theorem test_ror_acc :
    let t := ran ({ small 0x0300 [(0x300, 0x6A)] with a := 0x02, p := ⟨false, false, false, false, false, true⟩ })
    t.a = 0x81 ∧ t.p.c = false ∧ t.p.n = true := by decide

/-- 44 R253: BEQ at 0x02FD crosses a page. -/
theorem test_beq_page_cross :
    let t := ran ({ small 0x02FD [(0x2FD, 0xF0), (0x2FE, 0x01)] with p := ⟨false, false, false, false, true, false⟩ })
    t.pc = 0x0300 ∧ (t.buslog.map fun e => e.addr) = [0x02FD, 0x02FE, 0x02FF, 0x0200] := by decide

/-- 44 R255: BNE at 0x0305 with D0 F9. -/
theorem test_bne_backward :
    let t := ran (small 0x0305 [(0x305, 0xD0), (0x306, 0xF9)])
    t.pc = 0x0300 ∧ t.cycles = 3 := by decide

/-- 44 R259: JMP ($02FF) reads its high byte at 0x0200. -/
theorem test_jmp_indirect_bug :
    let t := ran (small 0x0300 [(0x200, 0x04), (0x2FF, 0x00), (0x300, 0x6C), (0x301, 0xFF), (0x302, 0x02)])
    t.pc = 0x0400 := by decide


/-- 44 R260: JSR $1234 at 0x0300. -/
theorem test_jsr :
    let t := ran (small 0x0300 [(0x300, 0x20), (0x301, 0x34), (0x302, 0x12)])
    trace t = [(.peek, 0x0300, 0x20), (.peek, 0x0301, 0x34), (.peek, 0x01FF, 0x00), (.poke, 0x01FF, 0x03), (.poke, 0x01FE, 0x02),
      (.peek, 0x0302, 0x12)] ∧ t.sp = 0xFD ∧ t.pc = 0x1234 := by decide

/-- 44 R260: a JSR in the stack page reads the byte its own push stored. -/
theorem test_jsr_overwrites_itself :
    let t := ran ({ small 0x01FD [(0x1FD, 0x20), (0x1FE, 0x34), (0x1FF, 0x12)] with sp := 0xFF })
    t.pc = 0x0134 ∧ t.sp = 0xFD := by decide

/-- 44 R261: RTS with 0x02 and 0x03 on the stack. -/
theorem test_rts :
    let t := ran ({ small 0x1234 [(0x1FE, 0x02), (0x1FF, 0x03), (0x1234, 0x60)] with sp := 0xFD })
    t.pc = 0x0303 ∧ t.sp = 0xFF ∧ t.cycles = 6 := by decide

/-- 44 R262: RTI. -/
theorem test_rti :
    let t := ran ({ small 0x0300 [(0x1FD, 0xC3), (0x1FE, 0x00), (0x1FF, 0x04), (0x300, 0x40)] with sp := 0xFC })
    flags t = [true, true, false, false, true, true] ∧ t.pc = 0x0400 ∧ t.sp = 0xFF := by decide

/-- 44 R263: BRK at 0x0300. -/
theorem test_brk :
    let t := ran ({ small 0x0300 [] with p := ⟨false, false, true, false, false, true⟩, rom := [(0x3FFF, 0xFA)] })
    trace t = [(.peek, 0x0300, 0x00), (.peek, 0x0301, 0x00), (.poke, 0x01FF, 0x03), (.poke, 0x01FE, 0x02), (.poke, 0x01FD, 0x39),
      (.peek, 0xFFFE, 0x00), (.peek, 0xFFFF, 0xFA)] ∧ t.sp = 0xFC ∧ t.p.i = true ∧ t.p.d = true ∧ t.pc = 0xFA00 := by decide

/-- 46 R300: 0x02, a jam of the real part, runs the BRK sequence. -/
theorem test_undocumented_as_brk :
    let t := ran ({ small 0x0300 [(0x300, 0x02)] with rom := [(0x3FFF, 0xFA)] })
    t.sp = 0xFC ∧ t.p.i = true ∧ t.pc = 0xFA00 ∧ t.ram.read 0x1FD = 0x30 := by decide

/-- 45 R280: PHA. -/
theorem test_pha :
    let t := ran ({ small 0x0300 [(0x300, 0x48)] with a := 0x5A })
    t.ram.read 0x1FF = 0x5A ∧ t.sp = 0xFE := by decide

/-- 45 R281: PHP pushes bits 5 and 4 set. -/
theorem test_php :
    let t := ran ({ small 0x0300 [(0x300, 0x08)] with p := ⟨true, false, false, false, true, false⟩ })
    t.ram.read 0x1FF = 0xB2 ∧ t.sp = 0xFE := by decide

/-- 45 R282: PLA. -/
theorem test_pla :
    let t := ran ({ small 0x0300 [(0x300, 0x68)] with sp := 0xFE, a := 0x33 })
    t.a = 0x00 ∧ t.p.z = true ∧ t.sp = 0xFF ∧ (t.buslog.map fun e => e.addr) = [0x0300, 0x0301, 0x01FE, 0x01FF] := by decide

/-- 45 R283: PLP. -/
theorem test_plp :
    let t := ran ({ small 0x0300 [(0x1FF, 0xFF), (0x300, 0x28)] with sp := 0xFE })
    flags t = [true, true, true, true, true, true] ∧ t.sp = 0xFF := by decide

/-- 45 R287: CLV. -/
theorem test_clv :
    let t := ran ({ small 0x0300 [(0x300, 0xB8)] with p := ⟨true, true, false, false, false, true⟩ })
    flags t = [true, false, false, false, false, true] := by decide

/-- 45 R289: SED. -/
theorem test_sed :
    let t := ran (small 0x0300 [(0x300, 0xF8)])
    flags t = [false, false, true, false, false, false] := by decide

/-- 45 R291: NOP. -/
theorem test_nop :
    let t := ran (small 0x0300 [(0x300, 0xEA)])
    t.pc = 0x0301 ∧ (t.buslog.map fun e => e.addr) = [0x0300, 0x0301] := by decide

/-- 60 R312: the line asserted with I = 0, B = 0 in the pushed byte. -/
theorem test_irq :
    let t := ran ({ small 0x0300 [] with rom := [(0x3FFF, 0xFA)], inputs := [⟨[], [], none, .none, true⟩] })
    t.pc = 0xFA00 ∧ t.ram.read 0x1FD = 0x20 ∧ t.ram.read 0x1FF = 0x03 ∧ t.ram.read 0x1FE = 0x00 ∧ t.cycles = 7 := by decide

/-- 70 R351: eight cycles, nothing written, TEXT set. -/
theorem test_warm_reset :
    let t := ran ({ small 0x0300 [] with rom := [(0x3FFD, 0xFA)], inputs := [⟨[], [], none, .warm, true⟩] })
    t.pc = 0xFA00 ∧ t.sp = 0xFC ∧ t.p.i = true ∧ t.sw.text = true ∧ t.cycles = 8 ∧ t.ram = [] := by decide

/-- 20 R84: STA $C009 sets ALTZP and logs cycle 3. -/
theorem test_altzp_write :
    let t := ran (small 0x0300 [(0x300, 0x8D), (0x301, 0x09), (0x302, 0xC0)])
    t.sw.altzp = true ∧ t.swlog = [⟨3, .altzp, true⟩] := by decide

/-- withFetchWord places the word step fetches. -/
theorem test_fetch_word :
    let t := ran (State.reset.withFetchWord 16 0x41A9)
    t.a = 0x41 ∧ t.pc = 0x0002 := by decide

/-! ### Witnesses: for every obligation with hypotheses, a concrete case that meets them all -/

/-- The switches with one bank chosen for reads and writes alike. -/
def auxSwitches : Registry := { resetSwitches with ramrd := true, ramwrt := true }

/-- The switches with language-card RAM enabled for reads and writes. -/
def cardSwitches (bank1 : Bool) : Registry :=
  { resetSwitches with lcBank1 := bank1, lcReadRam := true, lcWriteRam := true }

/-- The same configuration with no address hooked. -/
def unhooked : Config := { defaultConfig with hooked := [] }

/-- A II+ with no address hooked. -/
def plusUnhooked : Config := { unhooked with machine := .iiPlus }

theorem witness_DecodeInvertsEncode : (Instr.staAbx 0xFFFF).wf = true := rfl

theorem witness_SwitchPrimitives : Switch.ramrd ≠ Switch.ramwrt := by decide

theorem witness_EncodeInvertsDecode : decode [0xA9, 0x41, 0x77] = .ok (.ldaImm 0x41, [0x77]) := rfl

theorem witness_EveryOpcodeByteDecodes : decode (0xAD :: [0x00, 0x04]) = .ok (.ldaAbs 0x0400, []) ∧
    decode (0xAD :: [0xFF, 0xFF, 0x60]) = .ok (.ldaAbs 0xFFFF, [0x60]) ∧ (Instr.ill02).row.op = .ill := ⟨rfl, rfl, rfl⟩

theorem witness_ModesOfEachOperation : Operation.lda ≠ .ill ∧ (opcodeRow 0xA9).op = .lda ∧ (opcodeRow 0xA9).mode = .imm ∧
    Mode.imm ∈ Operation.modes .lda := by decide

theorem witness_WriteCycle : State.reset.ram.wf = true := by decide

/-- A hooked write whose handler suppresses it, and an auxiliary write with no auxiliary storage. -/
theorem witness_WriteCycle_clauses : writeSuppressed 0xC010 0x00 { State.reset with suppressDraws := [true] } = true ∧
    storeTarget 0x0200 { State.reset with sw := auxSwitches, cfg := { defaultConfig with ramSize := 65536 } } = none ∧
    storeTarget 0x0200 { State.reset with sw := auxSwitches } = some 0x10200 := by decide

theorem witness_ResolverKinds_main : BitVec.toNat (0xBFFF : Word) < 0xC000 := by decide

theorem witness_ResolverKinds_slots : 0xC000 ≤ BitVec.toNat (0xC000 : Word) ∧ BitVec.toNat (0xCFFF : Word) < 0xD000 := by decide

theorem witness_ResolverKinds_rom : 0xD000 ≤ BitVec.toNat (0xD000 : Word) ∧
    (resolve defaultConfig 0xD000 false resetSwitches).kind = .rom ∧
    (resolve defaultConfig 0xFFFF true resetSwitches).kind = .rom ∧
    (resolve { defaultConfig with lcPresent := false } 0xE000 false (cardSwitches true)).kind = .rom := by decide

theorem witness_ResolverKinds_card : (resolve defaultConfig 0xD000 false (cardSwitches true)).kind = .lcBank1 ∧
    (resolve defaultConfig 0xDFFF true (cardSwitches true)).kind = .lcBank1 ∧
    (resolve defaultConfig 0xDFFF false (cardSwitches false)).kind = .lcBank2 ∧
    (resolve defaultConfig 0xE000 true (cardSwitches true)).kind = .lcOther ∧
    (resolve defaultConfig 0xFFFF false (cardSwitches false)).kind = .lcOther := by decide

theorem witness_AuxiliaryBank_rom_slots : (resolve defaultConfig 0xFFFF false resetSwitches).kind = .rom ∧
    (resolve defaultConfig 0xC000 false resetSwitches).kind = .slots := by decide

theorem witness_AuxiliaryBank_main : (resolve defaultConfig 0x01FF false resetSwitches).kind = .main ∧
    (resolve defaultConfig 0xBFFF true resetSwitches).kind = .main ∧ defaultConfig.store80Mode = .or := by decide

/-- The override mode inside the display pages and just outside them. -/
theorem witness_AuxiliaryBank_override : (resolve defaultConfig 0x07FF false { resetSwitches with store80 := true }).kind = .main ∧
    inDisplay 0x07FF { resetSwitches with store80 := true } = true ∧
    inDisplay 0x0800 { resetSwitches with store80 := true } = false ∧
    inDisplay 0x3FFF { resetSwitches with store80 := true, hires := true } = true := by decide

theorem witness_StorageIsReachedOneWay :
    ramTarget defaultConfig (resolve defaultConfig 0xFFFF true { cardSwitches true with altzp := true }) = some 0x1FFFF ∧
    ramTarget defaultConfig (resolve defaultConfig 0xFFFF true { cardSwitches false with altzp := true }) = some 0x1FFFF ∧
    ramTarget defaultConfig (resolve defaultConfig 0x0000 true resetSwitches) = some 0x0000 ∧
    defaultConfig.ramSizeOk = true := by decide

theorem witness_BankIsolation : State.reset.ram.wf = true ∧ State.reset.cfg.isHooked 0x0400 = false ∧
    ((0x0400 : Word) < 0xC000 ∨ (0xD000 : Word) ≤ 0x0400) ∧
    ramTarget State.reset.cfg (resolve State.reset.cfg 0x0400 true resetSwitches) = some 0x0400 ∧
    ramSource State.reset.cfg (resolve State.reset.cfg 0x0400 false resetSwitches) = some 0x0400 ∧
    ramTarget State.reset.cfg (resolve State.reset.cfg 0x0400 true auxSwitches) = some 0x10400 ∧
    ramSource State.reset.cfg (resolve State.reset.cfg 0x0400 false auxSwitches) = some 0x10400 ∧ 0x0400 ≠ 0x10400 := by decide

/-- A write at 0x0010, then a read and a write of other places. -/
theorem witness_ReadSeesTheLastWrite : State.reset.ram.wf = true ∧ storeTarget 0x0010 State.reset = some 0x0010 ∧
    writeSuppressed 0x0010 0x55 State.reset = false ∧ State.reset.cfg.isHooked 0x0010 = false ∧
    ∃ es u, Cycles (memWrite 0x0010 0x55 State.reset) es u ∧ es.length = 2 ∧
      (∀ e ∈ es, e.type = .poke → ramTarget State.reset.cfg e.resolution ≠ some 0x0010) ∧
      ramSource State.reset.cfg (resolve State.reset.cfg 0x0010 false u.sw) = some 0x0010 := by
  refine ⟨by decide, by decide, by decide, by decide,
    [peekEvent 0x0010 (memWrite 0x0010 0x55 State.reset),
      pokeEvent 0x0011 0x66 (afterRead 0x0010 (memWrite 0x0010 0x55 State.reset))], _, ⟨rfl, rfl, rfl⟩, rfl, ?_, by decide⟩
  decide

/-- The index out of range stands after one in range. -/
theorem witness_SwitchIndexOutOfRange : 16 ≤ 16 ∧
    Running { State.reset with inputs := [⟨[15, 16, 3], [], none, .none, false⟩] } ∧
    16 ∈ (boundaryInput { State.reset with inputs := [⟨[15, 16, 3], [], none, .none, false⟩] }).registryReads :=
  ⟨by decide, ⟨rfl, rfl, rfl, by decide⟩, by decide⟩

theorem witness_LanguageCardAccess : (0xC080 : Word) ≤ 0xC080 ∧ (0xC080 : Word) ≤ 0xC08F ∧ (0xC080 : Word) ≤ 0xC08F ∧
    (0xC08F : Word) ≤ 0xC08F := by decide

theorem witness_TwoOddReadsEnableWrites : State.reset.cfg.lcPresent = true ∧ (0xC080 : Word) ≤ 0xC081 ∧
    (0xC08F : Word) ≤ 0xC08F ∧ (0xC081 : Word).getLsbD 0 = true ∧ (0xC08F : Word).getLsbD 0 = true ∧
    (0xC080 : Word).getLsbD 0 = false ∧
    ∃ es u, Cycles (afterRead 0xC081 State.reset) es u ∧ es.length = 2 ∧
      ∀ e ∈ es, e.addr < 0xC080 ∨ 0xC08F < e.addr := by
  refine ⟨by decide, by decide, by decide, by decide, by decide, by decide,
    [peekEvent 0xC07F (afterRead 0xC081 State.reset),
      pokeEvent 0xC090 0x00 (afterRead 0xC07F (afterRead 0xC081 State.reset))], _, ⟨rfl, rfl, rfl⟩, rfl, ?_⟩
  intro e he
  simp only [List.mem_cons, List.not_mem_nil, or_false] at he
  rcases he with rfl | rfl
  · exact .inl (by decide)
  · exact .inr (by decide)

theorem witness_NoOtherSideEffects : (0xBFFF : Word) < 0xC000 ∧ ((0xC00F : Word) < 0xC010 ∧ (0xC04F : Word) < 0xC050) ∧
    ((0xC057 : Word) < 0xC058 ∧ (0xC07F : Word) < 0xC080) ∧ (0xC08F : Word) < 0xC090 ∧
    ({ State.reset with cfg := plusUnhooked } : State).cfg.machine = .iiPlus ∧ Switch.slotc3rom ∈ iieOnly := by decide

theorem witness_StatusReads : unhooked.isHooked 0xC010 = false ∧ (0xC000 : Word) ≤ 0xC010 ∧ (0xC010 : Word) < 0xD000 ∧
    State.reset.cfg.isHooked 0xC011 = false ∧ State.reset.cfg.isHooked 0xC01F = false ∧ State.reset.cfg.machine = .iie ∧
    (0xC011 : Word) ≤ 0xC011 ∧ (0xC01F : Word) ≤ 0xC01F := by decide

/-- The last clause: a II+ at a status address, and on an IIe the addresses on either side. -/
theorem witness_StatusReads_environment : plusUnhooked.isHooked 0xC011 = false ∧ plusUnhooked.machine = .iiPlus ∧
    unhooked.isHooked 0xC010 = false ∧ (0xC010 : Word) < 0xC011 ∧ unhooked.isHooked 0xC020 = false ∧
    (0xC01F : Word) < 0xC020 := by decide

/-- The statement holds where the byte of the environment is a held draw. -/
theorem witness_StatusReads_value :
    (memRead 0xC01A { State.reset with ioDraws := [0x15] }).1 = 0x95 := by decide

theorem witness_DecimalAdd : BitVec.toNat (0x99 : Byte) / 16 < 10 ∧ BitVec.toNat (0x99 : Byte) % 16 < 10 ∧
    BitVec.toNat (0x00 : Byte) / 16 < 10 ∧ BitVec.toNat (0x00 : Byte) % 16 < 10 ∧ (adcDec 0x99 0x00 true).result = 0x00 := by decide

theorem witness_DecimalSubtract : BitVec.toNat (0x00 : Byte) / 16 < 10 ∧ BitVec.toNat (0x99 : Byte) % 16 < 10 ∧
    (sbcDec 0x00 0x99 true).result = 0x01 := by decide

theorem witness_RegisterWriters : exec .nop State.reset = .next (impliedCycle State.reset) ∧
    writesA (Instr.nop).row.op (Instr.nop).row.mode = false ∧ writesA (Instr.aslZp 0).row.op (Instr.aslZp 0).row.mode = false ∧
    (Instr.nop).row.op ∉ [.ldx, .tax, .tsx, .inx, .dex] ∧ (Instr.nop).row.op ∉ [.ldy, .tay, .iny, .dey] ∧
    (Instr.nop).row.op ∉ [.txs, .pha, .php, .pla, .plp, .jsr, .rts, .rti, .brk, .ill] ∧
    (Instr.nop).row.op ∉ [.bcc, .bcs, .beq, .bmi, .bne, .bpl, .bvc, .bvs, .jmp, .jsr, .rts, .rti, .brk, .ill] :=
  ⟨rfl, by decide⟩

theorem witness_FlagWriters : exec .nop State.reset = .next (impliedCycle State.reset) ∧ writesNZ (Instr.nop).row.op = false ∧
    (Instr.nop).row.op ∉ [.adc, .sbc, .bit, .clv, .plp, .rti] ∧ (Instr.nop).row.op ∉ [.cld, .sed, .plp, .rti] ∧
    (Instr.nop).row.op ∉ [.cli, .sei, .plp, .rti, .brk, .ill] ∧
    (Instr.nop).row.op ∉ [.adc, .sbc, .cmp, .cpx, .cpy, .asl, .lsr, .rol, .ror, .clc, .sec, .plp, .rti] := ⟨rfl, by decide⟩

theorem witness_OtherInstructionsKeepMemory : (∃ t, exec (.ldaZp 0x10) State.reset = .next t) ∧
    writesRam (Instr.ldaZp 0x10).row.op (Instr.ldaZp 0x10).row.mode = false := ⟨⟨_, rfl⟩, by decide⟩

/-- One store and one memory form of the RMW class; the others are met in the same way. -/
theorem witness_StoresAndModifiesFrame : (∃ t, exec (.staAbx 0x0400) State.reset = .next t) ∧
    storeTarget (writeAddress (.abx 0x0400) State.reset).1 (writeAddress (.abx 0x0400) State.reset).2 = some 0x0400 ∧
    ∃ t, exec (.incZp 0xFF) State.reset = .next t := ⟨⟨_, rfl⟩, by decide, ⟨_, rfl⟩⟩

theorem witness_PushesFrame : (∃ t, exec .pha State.reset = .next t) ∧ (∃ t, exec .php State.reset = .next t) ∧
    (∃ t, exec (.jsr 0x1234) State.reset = .next t) ∧ (∃ t, exec .brk State.reset = .next t) ∧ (Instr.brk).row.op = .brk ∧
    (∃ t, exec .illFF State.reset = .next t) ∧ (Instr.illFF).row.op = .ill :=
  ⟨⟨_, rfl⟩, ⟨_, rfl⟩, ⟨_, rfl⟩, ⟨_, rfl⟩, rfl, ⟨_, rfl⟩, rfl⟩

/-- A boundary that executes LDA #$41. -/
theorem witness_StepRunsTheDecodedInstruction :
    let s := small 0x0300 [(0x300, 0xA9), (0x301, 0x41)]
    let bs : List Byte := [0xA9, 0x41]
    Executes s ∧ (Instr.ldaImm 0x41).wf = true ∧ decode bs = .ok (.ldaImm 0x41, []) ∧
      ∀ (k : Nat) (b : Byte), bs[k]? = some b →
        PlainRead (eventsState s) ((eventsState s).pc + BitVec.ofNat 16 k) ∧
          sneakyRead ((eventsState s).pc + BitVec.ofNat 16 k) (eventsState s) = b := by
  refine ⟨⟨⟨rfl, rfl, rfl, by decide⟩, rfl, rfl, .inl rfl⟩, rfl, rfl, ?_⟩
  intro k b h
  match k with
  | 0 => cases h; exact ⟨⟨by decide, by decide⟩, rfl⟩
  | 1 => cases h; exact ⟨⟨by decide, by decide⟩, rfl⟩
  | k + 2 => cases h

/-- The same for JSR, whose third byte is not among those fetched first. -/
theorem witness_StepRunsTheDecodedInstruction_jsr :
    let s := small 0x0300 [(0x300, 0x20), (0x301, 0x34), (0x302, 0x12)]
    let bs : List Byte := [0x20, 0x34, 0x12]
    Executes s ∧ decode bs = .ok (.jsr 0x1234, []) ∧ fetchedBytes (.jsr 0x1234) = 2 ∧
      ∀ (k : Nat) (b : Byte), bs[k]? = some b →
        PlainRead (eventsState s) ((eventsState s).pc + BitVec.ofNat 16 k) ∧
          sneakyRead ((eventsState s).pc + BitVec.ofNat 16 k) (eventsState s) = b := by
  refine ⟨⟨⟨rfl, rfl, rfl, by decide⟩, rfl, rfl, .inl rfl⟩, rfl, rfl, ?_⟩
  intro k b h
  match k with
  | 0 => cases h; exact ⟨⟨by decide, by decide⟩, rfl⟩
  | 1 => cases h; exact ⟨⟨by decide, by decide⟩, rfl⟩
  | 2 => cases h; exact ⟨⟨by decide, by decide⟩, rfl⟩
  | k + 3 => cases h

/-- An instruction fetched from the I/O page, where the environment answers. -/
theorem witness_StepFetchesWhateverAnswers : Executes { State.reset with pc := 0xC100, ioDraws := [0xEA, 0x00] } :=
  ⟨⟨rfl, rfl, rfl, by decide⟩, rfl, rfl, .inl rfl⟩

/-- One instruction for each clause: a page cross of each of the three modes, and a branch not taken, taken with displacement
0, and taken across a page. -/
theorem witness_CycleCounts : (∃ t, exec (.ldaAbx 0x20FF) { State.reset with x := 0x01 } = .next t) ∧
    (Instr.ldaAbx 0x20FF).row.pageCross = true ∧ (Instr.ldaAbx 0x20FF).row.mode = .abx ∧
    (Instr.ldxAby 0x2000).row.pageCross = true ∧ (Instr.ldxAby 0x2000).row.mode = .aby ∧
    (Instr.adcIzy 0x80).row.pageCross = true ∧ (Instr.adcIzy 0x80).row.mode = .izy ∧
    (Instr.bne 0x00).row.mode = .rel ∧ branchCondition (Instr.bne 0x00).row.op { State.reset.p with z := true } = some false ∧
    branchCondition (Instr.beq 0x00).row.op { State.reset.p with z := true } = some true ∧
    hiByte (0x20FE + sext16 0x02) ≠ hiByte 0x20FE ∧
    (Instr.staAbx 0x20FF).row.pageCross = false ∧ (Instr.staAbx 0x20FF).row.mode ≠ .rel := ⟨⟨_, rfl⟩, by decide⟩

/-- The state of `test_irq`. -/
def interrupted : State := { small 0x0300 [] with inputs := [⟨[], [], none, .none, true⟩] }

theorem witness_InterruptEntry : Running interrupted ∧ (eventsState interrupted).fault = none ∧
    (boundaryInput interrupted).reset = .none ∧ (boundaryInput interrupted).irqLine = true ∧
    (eventsState interrupted).p.i = false := ⟨⟨rfl, rfl, rfl, by decide⟩, rfl, rfl, rfl, rfl⟩

/-- A warm reset with the line asserted too. -/
theorem witness_WarmReset : Running { small 0x0300 [] with inputs := [⟨[], [], none, .warm, true⟩] } ∧
    (eventsState { small 0x0300 [] with inputs := [⟨[], [], none, .warm, true⟩] }).fault = none ∧
    (boundaryInput { small 0x0300 [] with inputs := [⟨[], [], none, .warm, true⟩] }).reset = .warm :=
  ⟨⟨rfl, rfl, rfl, by decide⟩, rfl, rfl⟩

/-- Draws of a power-on. -/
def someDraws : PowerOnDraws := ⟨1, 2, 3, 4, 5, ⟨true, false, true, false, true, false⟩, [(0x1FFFF, 0x77)]⟩

theorem witness_PowerOnAndColdReset : (State.atPowerOn defaultConfig [] someDraws).refusal = none ∧
    (State.atPowerOn defaultConfig [] someDraws).fault = none ∧ (State.atPowerOn defaultConfig [] someDraws).powerOn = true ∧
    Switch.isLanguageCard .text = false ∧ 0x1FFFF < defaultConfig.ramSize ∧ 0 < [(0x00 : Byte)].length ∧
    Running { small 0x0300 [] with inputs := [⟨[], [], none, .cold someDraws, false⟩] } ∧
    (eventsState { small 0x0300 [] with inputs := [⟨[], [], none, .cold someDraws, false⟩] }).fault = none ∧
    (boundaryInput { small 0x0300 [] with inputs := [⟨[], [], none, .cold someDraws, false⟩] }).reset = .cold someDraws :=
  ⟨rfl, rfl, rfl, rfl, by decide, by decide, ⟨rfl, rfl, rfl, by decide⟩, rfl, rfl⟩

/-- Two draws of the last RAM byte: the later one counts. -/
theorem witness_PowerOnAndColdReset_ram : [(0x1FFFF, (0x11 : Byte)), (0x1FFFF, 0x77)] = [(0x1FFFF, 0x11)] ++ (0x1FFFF, 0x77) :: [] ∧
    (∀ c ∈ ([] : List Host.Cell), c.1 ≠ 0x1FFFF) ∧
    (Memory.ofCells defaultConfig.ramSize [(0x1FFFF, 0x11), (0x1FFFF, 0x77)]).read 0x1FFFF = 0x77 := ⟨rfl, by simp, by decide⟩

/-- A clean launch with the vector 0x1234 in ROM and 0x5678 in LC RAM, PC drawn as `pc` and LC_READ_RAM as `readRam`. -/
def vectorLaunch (readRam : Bool) (pc : Word) : State :=
  { State.atPowerOn { defaultConfig with lcPowerOn := ⟨false, readRam, false, false⟩ } [(0x3FFC, 0x34), (0x3FFD, 0x12)]
      { someDraws with ram := [(0xFFFC, 0x78), (0xFFFD, 0x56)] } with pc := pc }

/-- PC below the language card's switches: LC_READ_RAM is kept. -/
theorem witness_LaunchReachesTheRomVector : CleanLaunch (vectorLaunch false 0xC07F) ∧
    (vectorLaunch false 0xC07F).cfg.isHooked 0xFFFC = false ∧ (vectorLaunch false 0xC07F).cfg.isHooked 0xFFFD = false ∧
    vectorInRam (vectorLaunch false 0xC07F) = false ∧ RomVector 0x1234 (vectorLaunch false 0xC07F) ∧
    vectorInRam (vectorLaunch true 0xC090) = true ∧ RomVector 0x5678 (vectorLaunch true 0xC090) :=
  ⟨⟨rfl, rfl, rfl, rfl, rfl, rfl⟩, by decide, by decide, rfl, rfl, rfl, rfl⟩

/-- PC in 0xC080-0xC08F: the reset's reads at 0xC081 select ROM, those at 0xC08F LC RAM, whatever LC_READ_RAM was. -/
theorem witness_LaunchReachesTheRomVector_moved :
    CleanLaunch (vectorLaunch true 0xC081) ∧ RomVector 0x1234 (vectorLaunch true 0xC081) ∧
    CleanLaunch (vectorLaunch false 0xC08F) ∧ RomVector 0x5678 (vectorLaunch false 0xC08F) :=
  ⟨⟨rfl, rfl, rfl, rfl, rfl, rfl⟩, rfl, ⟨rfl, rfl, rfl, rfl, rfl, rfl⟩, rfl⟩

/-- The vector addresses hooked: the environment supplies the two bytes. -/
theorem witness_LaunchReachesTheRomVector_hooked :
    let s := { vectorLaunch false 0x0300 with
      cfg := { defaultConfig with hooked := [⟨0xFFFC, 0xFFFD⟩] }, ioDraws := [0xCD, 0xAB] }
    CleanLaunch s ∧ RomVector 0xABCD s :=
  ⟨⟨rfl, rfl, rfl, rfl, rfl, rfl⟩, rfl⟩

theorem witness_MarkedStatesHaveNoStep :
    ({ State.reset with refusal := some .badRomSize } : State).refusal = some .badRomSize ∧
    ({ State.reset with fault := some .prestepLoop } : State).fault = some .prestepLoop ∧
    defaultConfig.romImageOk ([] : List Byte).length = false ∧
    ({ defaultConfig with ramSize := 0 } : Config).romImageOk (List.replicate 16384 (0x00 : Byte)).length = true ∧
    ({ defaultConfig with ramSize := 0 } : Config).ramSizeOk = false ∧
    ({ State.reset with pc := 0xFFFF } : State).pc = State.reset.cfg.endPc := by
  refine ⟨rfl, rfl, rfl, ?_, rfl, rfl⟩
  rw [List.length_replicate]
  rfl

/-- Two moving sweeps under the limit and then a stable one, with a STEP handler that leaves PC and one that does not. -/
theorem witness_PrestepAndStepEvents :
    let s : State := { State.reset with inputs := [⟨[], [1, 2, 2], some 2, .none, false⟩] }
    let s' : State := { State.reset with inputs := [⟨[], [1, 2], some 7, .none, false⟩] }
    Running s ∧ (boundaryInput s).registryReads = [] ∧ Moving s.pc [1, 2] ∧ [1, 2].length < s.cfg.prestepLimit ∧
      (boundaryInput s).sweeps = [1, 2] ++ lastPc s.pc [1, 2] :: [] ∧
      (boundaryInput s).stepPcChange = some (lastPc s.pc [1, 2]) ∧
      Running s' ∧ (boundaryInput s').sweeps = [1, 2] ∧ (boundaryInput s').stepPcChange = some 7 ∧
      (7 : Word) ≠ lastPc s'.pc [1, 2] := by
  refine ⟨⟨rfl, rfl, rfl, by decide⟩, rfl, ⟨by decide, by decide, trivial⟩, by decide, rfl, rfl,
    ⟨rfl, rfl, rfl, by decide⟩, rfl, rfl, by decide⟩

/-- As many moving sweeps as the limit. -/
theorem witness_PrestepAndStepEvents_loop :
    let s : State := { State.reset with
      cfg := { defaultConfig with prestepLimit := 2 }, inputs := [⟨[], [1, 2, 9], none, .warm, true⟩] }
    Running s ∧ (boundaryInput s).registryReads = [] ∧ Moving s.pc [1, 2] ∧ [1, 2].length = s.cfg.prestepLimit ∧
      ([1, 2] : List Word) ≠ [] ∧ (boundaryInput s).sweeps = [1, 2] ++ [9] :=
  ⟨⟨rfl, rfl, rfl, by decide⟩, rfl, ⟨by decide, by decide, trivial⟩, rfl, by decide, rfl⟩

/-- A state of the invariant that is not the reset state, and its step. -/
theorem witness_EveryStepKeepsTheInvariant :
    (small 0x0300 [(0x300, 0xA9), (0x301, 0x41)]).Inv ∧
      ∃ t, step (small 0x0300 [(0x300, 0xA9), (0x301, 0x41)]) = .next t := by
  refine ⟨⟨by decide, by decide, by decide, by decide, by decide, by decide, ?_, ?_, ?_⟩, ⟨_, rfl⟩⟩
  · intro k e h
    cases h
  · intro e h
    cases h
  · intro h
    cases h

theorem witness_EveryChangeIsOnTheBus :
    (∃ t, step (small 0x0300 [(0x300, 0x85), (0x301, 0x10)]) = .next t) ∧
      (small 0x0300 [(0x300, 0x85), (0x301, 0x10)]).powerOn = false ∧
      (boundaryInput (small 0x0300 [(0x300, 0x85), (0x301, 0x10)])).reset = .none := ⟨⟨_, rfl⟩, rfl, rfl⟩

theorem witness_ReturnUndoesBreak : (Instr.brk).row.op = .brk ∧ (Instr.ill02).row.op = .ill ∧ StackBacked State.reset ∧
    State.reset.ram.wf = true ∧ ∃ t, exec .brk State.reset = .next t := by
  refine ⟨rfl, rfl, ⟨?_, .inl rfl⟩, by decide, ⟨_, rfl⟩⟩
  decide

end Sys2Proof.Machine.Tests
end

section
/-! SUPPORT. What the events of a boundary keep, and what an answered step is: a run of bus cycles from the state the boundary
starts its cycles in. From it, what every step keeps and what the logs say of every change (O58). -/

namespace Sys2Proof.Machine

/-! ### What the environment's events keep -/

section
variable (s : State)

@[simp] theorem eventsState_sw : (eventsState s).sw = s.sw := by rw [eventsState_only]
@[simp] theorem eventsState_ram : (eventsState s).ram = s.ram := by rw [eventsState_only]
@[simp] theorem eventsState_rom : (eventsState s).rom = s.rom := by rw [eventsState_only]
@[simp] theorem eventsState_swlog : (eventsState s).swlog = s.swlog := by rw [eventsState_only]
@[simp] theorem eventsState_buslog : (eventsState s).buslog = s.buslog := by rw [eventsState_only]
@[simp] theorem eventsState_cycles : (eventsState s).cycles = s.cycles := by rw [eventsState_only]
@[simp] theorem eventsState_refusal : (eventsState s).refusal = s.refusal := by rw [eventsState_only]
@[simp] theorem eventsState_cfg : (eventsState s).cfg = s.cfg := by rw [eventsState_only]

end

/-! ### An answered step as a run -/

/-- Every answered step is a run of bus cycles from a start state with the ROM, the configuration and the refusal mark of
`s`; where no reset is made that start is the state the boundary's events leave. -/
theorem step_run {s t : State} (h : step s = .next t) :
    ∃ s0 es, Run s0 es t ∧ s0.rom = s.rom ∧ s0.cfg = s.cfg ∧ s0.refusal = s.refusal ∧
      (s.powerOn = false → (boundaryInput s).reset = .none → s0 = eventsState s) := by
  obtain ⟨hr, _, ⟨hp, rfl⟩ | ⟨_, _, ⟨hq, rfl⟩ | ⟨d, hq, rfl⟩ | ⟨_, _, _, rfl⟩ | ⟨_, hi⟩⟩⟩ := step_cases h
  case inl =>
    obtain ⟨es, _, _, hrun⟩ := resetSequence_run { s with powerOn := false }
    exact ⟨_, es, hrun, rfl, rfl, rfl, by simp [hp]⟩
  case inr.inl =>
    obtain ⟨es, _, _, hrun⟩ := resetSequence_run (eventsState s)
    exact ⟨_, es, hrun, by simp, by simp, by simp, by simp [hq]⟩
  case inr.inr.inl =>
    obtain ⟨es, _, _, hrun⟩ := resetSequence_run { State.atPowerOn (eventsState s).cfg (eventsState s).rom d with
      powerOn := false, inputs := (eventsState s).inputs, ioDraws := (eventsState s).ioDraws,
      suppressDraws := (eventsState s).suppressDraws }
    exact ⟨_, es, hrun, eventsState_rom s, eventsState_cfg s, hr.symm, by simp [hq]⟩
  case inr.inr.inr.inl =>
    obtain ⟨es, _, hrun⟩ := irqEntry_run (eventsState s)
    exact ⟨_, es, hrun, by simp, by simp, by simp, fun _ _ => rfl⟩
  case inr.inr.inr.inr =>
    obtain ⟨es, t', ht, hrun⟩ := instructionStep_run (eventsState s)
    cases hi.symm.trans ht
    exact ⟨_, es, hrun, by simp, by simp, by simp, fun _ _ => rfl⟩

/-- The switch log of a run grows by one list, of entries of its own cycles, that names every switch that differs. -/
theorem Run.swlog_growth {s t : State} {es : List BusEvent} (h : Run s es t) :
    ∃ ls, t.swlog = s.swlog ++ ls ∧ (∀ l ∈ ls, s.cycles ≤ l.cycle ∧ l.cycle < t.cycles) ∧
      ∀ f : Switch, t.sw.get f ≠ s.sw.get f → ∃ l ∈ ls, l.flag = f ∧ l.value = t.sw.get f := by
  obtain ⟨ls, hls, hcycle⟩ := h.swlog
  obtain ⟨ls', hls', hnamed⟩ := h.logged
  obtain rfl : ls = ls' := List.append_cancel_left (hls.symm.trans hls')
  exact ⟨ls, hls, by rwa [h.cycles], hnamed⟩

/-- Settles O58: an answered step is a run (`step_run`), and a run changes RAM and switches only as its trace and its
log entries say. -/
theorem everyChangeIsOnTheBus : Obligations.EveryChangeIsOnTheBus := by
  intro s t h
  obtain ⟨s0, es, hrun, hrom, hcfg, hrefusal, hstart⟩ := step_run h
  refine ⟨hrun.rom.trans hrom, hrun.cfg.trans hcfg, hrun.refusal.trans hrefusal, fun hp hq => ?_⟩
  obtain rfl := hstart hp hq
  obtain ⟨ls, hls, hcycle, hnamed⟩ := hrun.swlog_growth
  exact ⟨es, ls, by simpa using hrun.buslog, by simpa using hrun.cycles, by simpa using hls, by simpa using hcycle,
    by simpa using hrun.ram_changes, by simpa using hnamed⟩

end Sys2Proof.Machine
end

section
/-! SUPPORT. The decoder: what each row of the opcode map builds is encoded as its opcode and the operand, and decodes back; and
decoding is total over the opcode byte and depends on it alone (O3). -/

namespace Sys2Proof

/-! ### The rows of the opcode map -/

/-- How many operand bytes a form takes (30_encoding.md R120). -/
def Form.operandBytes : Form → Nat
  | .implied _ => 0
  | .byte _ => 1
  | .word _ => 2

/-- The instruction a form builds of an operand, of which a one-byte form takes the low byte. -/
def Form.fill (w : Word) : Form → Instr
  | .implied i => i
  | .byte f => f (loByte w)
  | .word f => f w

/-- Given any operand, the rows build instructions that are encoded as that operand behind the opcodes from `k` upward. -/
def RowsEncode (k : Nat) (rs : List OpcodeRow) : Prop :=
  ∀ w : Word, rs.map (fun r => encode (r.form.fill w)) =
    (rs.zipIdx k).map fun r => BitVec.ofNat 8 r.2 :: (wordBytes w).take r.1.form.operandBytes

theorem RowsEncode.append {k n : Nat} {rs rs' : List OpcodeRow} (h : RowsEncode k rs) (hn : k + rs.length = n)
    (h' : RowsEncode n rs') : RowsEncode k (rs ++ rs') := fun w => by
  rw [List.map_append, h w, h' w, List.zipIdx_append, List.map_append, hn]

/-- The opcode map builds what `encode` encodes, row by row (30_encoding.md R120, R122, R124). -/
theorem opcodeMap_encode : RowsEncode 0 opcodeMap := by
  have h0 : RowsEncode 0x00 opcodeMap0 := fun _ => rfl
  have h1 : RowsEncode 0x10 opcodeMap1 := fun _ => rfl
  have h2 : RowsEncode 0x20 opcodeMap2 := fun _ => rfl
  have h3 : RowsEncode 0x30 opcodeMap3 := fun _ => rfl
  have h4 : RowsEncode 0x40 opcodeMap4 := fun _ => rfl
  have h5 : RowsEncode 0x50 opcodeMap5 := fun _ => rfl
  have h6 : RowsEncode 0x60 opcodeMap6 := fun _ => rfl
  have h7 : RowsEncode 0x70 opcodeMap7 := fun _ => rfl
  have h8 : RowsEncode 0x80 opcodeMap8 := fun _ => rfl
  have h9 : RowsEncode 0x90 opcodeMap9 := fun _ => rfl
  have hA : RowsEncode 0xA0 opcodeMapA := fun _ => rfl
  have hB : RowsEncode 0xB0 opcodeMapB := fun _ => rfl
  have hC : RowsEncode 0xC0 opcodeMapC := fun _ => rfl
  have hD : RowsEncode 0xD0 opcodeMapD := fun _ => rfl
  have hE : RowsEncode 0xE0 opcodeMapE := fun _ => rfl
  have hF : RowsEncode 0xF0 opcodeMapF := fun _ => rfl
  simp only [opcodeMap, List.append_assoc]
  exact h0.append rfl <| h1.append rfl <| h2.append rfl <| h3.append rfl <| h4.append rfl <| h5.append rfl <|
    h6.append rfl <| h7.append rfl <| h8.append rfl <| h9.append rfl <| hA.append rfl <| hB.append rfl <|
    hC.append rfl <| hD.append rfl <| hE.append rfl hF

/-- Whatever its operand, an instruction of the map is encoded as its opcode and the bytes of the operand. -/
theorem encode_fill (op : Byte) (w : Word) : encode ((opcodeRow op).form.fill w) =
    op :: (wordBytes w).take (opcodeRow op).form.operandBytes := by
  have hop : op.toNat < opcodeMap.length := by rw [opcodeMap_length]; exact op.isLt
  have := congrArg (·[op.toNat]?) (opcodeMap_encode w)
  simpa [hop, opcodeRow] using this

theorem operandBytes_of_ill_row : ∀ r ∈ opcodeMap, r.op = .ill → r.form.operandBytes = 0 := by
  simp only [opcodeMap, List.forall_mem_append]
  decide

theorem place_of_jsr_row : ∀ r ∈ opcodeMap.zipIdx, r.1.op = .jsr → r.2 = 0x20 := by
  simp only [opcodeMap, List.zipIdx_append, List.forall_mem_append]
  decide

/-- No undocumented row takes an operand (46_illegal_opcodes.md R300). -/
theorem operandBytes_of_ill {op : Byte} (h : (opcodeRow op).op = .ill) : (opcodeRow op).form.operandBytes = 0 :=
  operandBytes_of_ill_row _ (List.getElem_mem _) h

/-- The only row of JSR is that of 0x20 (30_encoding.md R124). -/
theorem opcodeRow_op_jsr {op : Byte} : (opcodeRow op).op = .jsr ↔ op = 0x20 := by
  refine ⟨fun h => BitVec.eq_of_toNat_eq ?_, fun h => by rw [h]; rfl⟩
  refine place_of_jsr_row (opcodeRow op, op.toNat) (List.mk_mem_zipIdx_iff_getElem?.2 ?_) h
  exact List.getElem?_eq_getElem _

theorem Form.operandBytes_le (f : Form) : f.operandBytes ≤ 2 := by
  cases f <;> simp [Form.operandBytes]

section
variable (op : Byte) (w : Word)

@[simp] theorem opcode_fill : ((opcodeRow op).form.fill w).opcode = op := by
  rw [Instr.opcode, encode_fill]
  rfl

@[simp] theorem row_fill : ((opcodeRow op).form.fill w).row = opcodeRow op := by
  rw [Instr.row, opcode_fill]

@[simp] theorem length_fill : ((opcodeRow op).form.fill w).length = 1 + (opcodeRow op).form.operandBytes := by
  rw [Instr.length, encode_fill, List.length_cons, List.length_take, show (wordBytes w).length = 2 from rfl,
    Nat.min_eq_left (Form.operandBytes_le _), Nat.add_comm]

end

/-! ### Decoding -/

/-- An instruction's opcode and operand bytes decode to it, and to the bytes after them. -/
theorem decode_fill (op : Byte) (w : Word) (rest : List Byte) :
    decode (op :: (wordBytes w).take (opcodeRow op).form.operandBytes ++ rest) =
      .ok ((opcodeRow op).form.fill w, rest) := by
  cases hf : (opcodeRow op).form <;> simp [decode, hf, Form.operandBytes, Form.fill, wordBytes]

/-- What decodes is an instruction of the row of its first byte, with some operand. -/
theorem eq_fill_of_decode {op : Byte} {bs r : List Byte} {i : Instr} (h : decode (op :: bs) = .ok (i, r)) :
    ∃ w, i = (opcodeRow op).form.fill w := by
  cases hf : (opcodeRow op).form with
  | implied j => simp_all [decode, Form.fill]
  | byte f =>
    match bs with
    | [] => simp [decode, hf] at h
    | b :: _ => exact ⟨wordOf 0 b, by simp_all [decode, Form.fill]⟩
  | word f =>
    match bs with
    | [] | [_] => simp [decode, hf] at h
    | b1 :: b2 :: _ => exact ⟨wordOf b2 b1, by simp_all [decode, Form.fill]⟩

/-- Three bytes or more decode to an instruction of the row of the first, with the two after it as operand. -/
theorem decode_three (op b1 b2 : Byte) (rest : List Byte) :
    ∃ rest', decode (op :: b1 :: b2 :: rest) = .ok ((opcodeRow op).form.fill (wordOf b2 b1), rest') := by
  cases hf : (opcodeRow op).form <;> simp [decode, hf, Form.fill]

/-- Settles O3: what decodes is an instruction of its first byte's row, whose operation, mode and length no operand
changes. -/
theorem everyOpcodeByteDecodes : Obligations.EveryOpcodeByteDecodes := by
  refine ⟨fun op b1 b2 rest => ?_, fun op bs bs' r r' i i' h h' => ?_⟩
  · obtain ⟨rest', h⟩ := decode_three op b1 b2 rest
    refine ⟨_, rest', h, opcode_fill _ _, fun hill => ?_⟩
    rw [row_fill] at hill
    rw [length_fill, operandBytes_of_ill hill]
  · obtain ⟨w, rfl⟩ := eq_fill_of_decode h
    obtain ⟨w', rfl⟩ := eq_fill_of_decode h'
    simp only [row_fill, length_fill, and_self]

end Sys2Proof
end

section
/-! SUPPORT. Fetching: the read cycles at PC and the addresses after it, and that the instruction fetched is what the bytes
they read decode to (O49). -/

namespace Sys2Proof.Machine

/-! ### Consecutive reads -/

/-- The `n` read cycles at an address and the ones after it: their records, and the state they leave. -/
def readsFrom (addr : Word) (s : State) : Nat → List BusEvent × State
  | 0 => ([], s)
  | n + 1 =>
    let r := readsFrom (addr + 1) (afterRead addr s) n
    (peekEvent addr s :: r.1, r.2)

@[simp] theorem readsFrom_length (n : Nat) : ∀ (addr : Word) (s : State), (readsFrom addr s n).1.length = n := by
  induction n with
  | zero => exact fun _ _ => rfl
  | succ n ih => exact fun addr s => congrArg (· + 1) (ih (addr + 1) (afterRead addr s))

theorem readsFrom_cycles (n : Nat) : ∀ (addr : Word) (s : State),
    Cycles s (readsFrom addr s n).1 (readsFrom addr s n).2 := by
  induction n with
  | zero => exact fun _ s => Cycles.nil s
  | succ n ih => exact fun addr s => Cycles.read addr (ih (addr + 1) (afterRead addr s))

theorem readsFrom_isRead (n : Nat) : ∀ (addr : Word) (s : State) (k : Nat) (e : BusEvent),
    (readsFrom addr s n).1[k]? = some e → e.IsRead (addr + BitVec.ofNat 16 k) := by
  induction n with
  | zero => intro addr s k e h; cases h
  | succ n ih =>
    intro addr s k e h
    cases k with
    | zero =>
      obtain rfl : peekEvent addr s = e := Option.some.inj h
      simpa using peekEvent_isRead addr s
    | succ k =>
      have he := ih (addr + 1) (afterRead addr s) k e h
      rwa [BitVec.add_assoc, ← show BitVec.ofNat 16 1 = 1 from rfl, ← BitVec.ofNat_add, Nat.add_comm] at he

/-! ### Fetching -/

@[simp] theorem fetch_setPc (s : State) (addr : Word) :
    fetch (s.setPc addr) = (readValue addr s, (afterRead addr s).setPc (addr + 1)) := by
  rw [fetch_eq, setPc_pc, readValue_setPc, afterRead_setPc]
  rfl

/-- How many bytes the fetch of an instruction with this opcode reads: all, but for JSR's third (log 15). -/
def fetchCount (op : Byte) : Nat := if op = 0x20 then 2 else 1 + (opcodeRow op).form.operandBytes

theorem fetchedBytes_fill (op : Byte) (w : Word) : fetchedBytes ((opcodeRow op).form.fill w) = fetchCount op := by
  unfold fetchCount
  split
  · next h => rw [h]; rfl
  · next h =>
    unfold fetchedBytes
    split
    · next a hj => exact absurd (by rw [← opcode_fill op w, hj]; rfl) h
    · exact length_fill op w

/-- The instruction fetched is the one its opcode's row builds of the bytes read after the opcode and, for JSR, of the
byte a sneaky read shows. -/
theorem fetchInstr_fill {s : State} {op : Byte} (hop : readValue s.pc s = op) :
    let r := readsFrom s.pc s (fetchCount op)
    ∃ w, fetchInstr s = ((opcodeRow op).form.fill w, r.2.setPc (s.pc + BitVec.ofNat 16 (fetchCount op))) ∧
      (r.1.map BusEvent.value ++ if op = 0x20 then [sneakyRead (s.pc + 2) r.2] else []) =
        op :: (wordBytes w).take (opcodeRow op).form.operandBytes := by
  have h2 : s.pc + 1 + 1 = s.pc + 2 := by rw [BitVec.add_assoc]; rfl
  have h3 : s.pc + 2 + 1 = s.pc + 3 := by rw [BitVec.add_assoc]; rfl
  have hvalue : ∀ addr t, (peekEvent addr t).value = readValue addr t := fun _ _ => rfl
  by_cases h20 : op = 0x20
  · subst h20
    have hf : (opcodeRow 0x20).form = .word .jsr := rfl
    have hn : fetchCount 0x20 = 2 := rfl
    refine ⟨wordOf (sneakyRead (s.pc + 2) (afterRead (s.pc + 1) (afterRead s.pc s)))
      (readValue (s.pc + 1) (afterRead s.pc s)), ?_, ?_⟩
    · simp only [fetchInstr, fetch_eq s, fetch_setPc, hop, hf, hn, readsFrom, if_true, h2]
      rfl
    · simp only [hn, readsFrom, List.map, hvalue, hop, hf, if_true, wordBytes, loByte_wordOf, hiByte_wordOf]
      rfl
  cases hf : (opcodeRow op).form with
  | implied i =>
    have hn : fetchCount op = 1 := by simp only [fetchCount, h20, if_false, hf, Form.operandBytes]
    refine ⟨0, ?_, ?_⟩
    · simp only [fetchInstr, fetch_eq, hop, hf, hn, readsFrom]
      rfl
    · simp only [hn, readsFrom, List.map, hvalue, hop, h20, if_false]
      rfl
  | byte f =>
    have hn : fetchCount op = 2 := by simp only [fetchCount, h20, if_false, hf, Form.operandBytes]
    refine ⟨wordOf 0 (readValue (s.pc + 1) (afterRead s.pc s)), ?_, ?_⟩
    · simp only [fetchInstr, fetch_eq s, fetch_setPc, hop, hf, hn, readsFrom, h2, Form.fill, loByte_wordOf]
      rfl
    · simp only [hn, readsFrom, List.map, hvalue, hop, h20, if_false, wordBytes, loByte_wordOf]
      rfl
  | word f =>
    have hn : fetchCount op = 3 := by simp only [fetchCount, h20, if_false, hf, Form.operandBytes]
    refine ⟨wordOf (readValue (s.pc + 2) (afterRead (s.pc + 1) (afterRead s.pc s)))
      (readValue (s.pc + 1) (afterRead s.pc s)), ?_, ?_⟩
    · simp only [fetchInstr, fetch_eq s, fetch_setPc, hop, hf, hn, readsFrom, h20, if_false, h2, h3]
      rfl
    · simp only [hn, readsFrom, List.map, hvalue, hop, h20, if_false, h2, wordBytes, loByte_wordOf, hiByte_wordOf]
      rfl

/-- Fetching an instruction reads its bytes, leaves PC past them, and looks up what they decode to. -/
theorem fetchInstr_spec (s : State) :
    let i := (fetchInstr s).1
    let r := readsFrom s.pc s (fetchedBytes i)
    decode (r.1.map BusEvent.value ++ if i.row.op = .jsr then [sneakyRead (s.pc + 2) r.2] else []) = .ok (i, []) ∧
      (fetchInstr s).2 = r.2.setPc (s.pc + BitVec.ofNat 16 (fetchedBytes i)) := by
  obtain ⟨w, h, hbytes⟩ := fetchInstr_fill (rfl : readValue s.pc s = _)
  simp only [h, fetchedBytes_fill, row_fill, opcodeRow_op_jsr, hbytes, and_true]
  simpa only [List.append_nil] using decode_fill _ w []

/-- Settles O49: fetching is a run of reads from PC on, and what they read decodes to the instruction the step executes. -/
theorem stepFetchesWhateverAnswers : Obligations.StepFetchesWhateverAnswers := by
  intro s h s1
  obtain ⟨hdecode, hstate⟩ := fetchInstr_spec s1
  refine ⟨_, _, _, _, hdecode, readsFrom_length _ _ _, readsFrom_isRead _ _ _, readsFrom_cycles _ _ _, rfl, ?_⟩
  rw [step_of_executes h]
  exact congrArg (exec (fetchInstr s1).1) hstate

end Sys2Proof.Machine
end

section
/-! SUPPORT. The invariant `State.Inv`: kept by every run of bus cycles, by a boundary's events and by a reset, so by every
step (O57); and the reset state meets it (O56). -/

namespace Sys2Proof.Machine

/-- Only what the invariant speaks of counts: the configuration, the two stores, the two logs, the counter and, on a II+,
the IIe switches. -/
theorem State.Inv.congr {s t : State} (h : s.Inv) (hcfg : t.cfg = s.cfg) (hram : t.ram = s.ram) (hrom : t.rom = s.rom)
    (hbuslog : t.buslog = s.buslog) (hswlog : t.swlog = s.swlog) (hcycles : t.cycles = s.cycles)
    (hsw : ∀ f ∈ iieOnly, s.sw.get f = false → t.sw.get f = false) : t.Inv where
  ramSize := by simpa only [hcfg] using h.ramSize
  ramForm := by simpa only [hram] using h.ramForm
  ramFits := by simpa only [hcfg, hram] using h.ramFits
  romForm := by simpa only [hrom] using h.romForm
  romFits := by simpa only [hcfg, hrom] using h.romFits
  cyclesCount := by simpa only [hbuslog, hcycles] using h.cyclesCount
  eventNumbers := by simpa only [hbuslog] using h.eventNumbers
  switchEntries := by simpa only [hswlog, hcycles] using h.switchEntries
  iiPlusSwitches hm f hf := hsw f hf (h.iiPlusSwitches (hcfg ▸ hm) f hf)

/-- The records of a run carry on the numbering of the bus log. -/
theorem Run.eventNumbers {s t : State} {es : List BusEvent} (h : Run s es t) (hcount : s.buslog.length = s.cycles)
    (hs : ∀ (k : Nat) (e : BusEvent), s.buslog[k]? = some e → e.cycle = k) (k : Nat) (e : BusEvent)
    (he : t.buslog[k]? = some e) : e.cycle = k := by
  rw [h.buslog] at he
  rcases Nat.lt_or_ge k s.buslog.length with hk | hk
  · exact hs k e (by rwa [List.getElem?_append_left hk] at he)
  · rw [List.getElem?_append_right hk] at he
    rw [h.numbers _ e he]
    omega

/-- A run of bus cycles keeps the invariant, whatever happens to the registers. -/
theorem Run.inv {s t : State} {es : List BusEvent} (h : Run s es t) (hs : s.Inv) : t.Inv where
  ramSize := by simpa only [h.cfg] using hs.ramSize
  ramForm := h.ram_wf hs.ramForm
  ramFits := by simpa only [h.cfg] using h.ram_below hs.ramSize hs.ramFits
  romForm := by simpa only [h.rom] using hs.romForm
  romFits := by simpa only [h.cfg, h.rom] using hs.romFits
  cyclesCount := by rw [h.buslog, h.cycles, List.length_append, hs.cyclesCount]
  eventNumbers := h.eventNumbers hs.cyclesCount hs.eventNumbers
  switchEntries e he := by
    obtain ⟨ls, hls, hcycle, _⟩ := h.swlog_growth
    have hle : s.cycles ≤ t.cycles := by rw [h.cycles]; omega
    rcases List.mem_append.1 (hls ▸ he) with he | he
    · exact Nat.lt_of_lt_of_le (hs.switchEntries e he) hle
    · exact (hcycle e he).2
  iiPlusSwitches hm f hf := by
    rw [h.cfg] at hm
    rw [h.iiPlus hm f hf, hs.iiPlusSwitches hm f hf]

theorem eventsState_inv {s : State} (h : s.Inv) : (eventsState s).Inv :=
  h.congr (by simp) (by simp) (by simp) (by simp) (by simp) (by simp) (by simp)

/-- Reset and power-on leave every IIe switch clear (70_reset_and_hazards.md R352, R358). -/
theorem switchReset_iieOnly (r : Registry) : ∀ f ∈ iieOnly, r.switchReset.get f = false := by
  simp [iieOnly, Registry.get, Registry.switchReset]

theorem powerOnSwitches_iieOnly (lc : LcPowerOn) : ∀ f ∈ iieOnly, (powerOnSwitches lc).get f = false := by
  simp [iieOnly, Registry.get, powerOnSwitches]

theorem resetSequence_inv {s : State} (h : s.Inv) : (resetSequence s).Inv := by
  obtain ⟨_, _, _, hrun⟩ := resetSequence_run s
  exact hrun.inv (h.congr rfl rfl rfl rfl rfl rfl fun f hf _ => switchReset_iieOnly s.sw f hf)

theorem powerOnReset_inv {s : State} (h : s.Inv) : (powerOnReset s).Inv :=
  resetSequence_inv (h.congr rfl rfl rfl rfl rfl rfl fun _ _ hf => hf)

/-- The power-on state of a legal configuration and a fitting ROM meets the invariant, whatever is drawn. -/
theorem atPowerOn_inv {cfg : Config} {rom : Memory} (draws : PowerOnDraws) (hsize : cfg.ramSizeOk = true)
    (hform : rom.wf = true) (hfits : rom.below cfg.romSize = true) : (State.atPowerOn cfg rom draws).Inv where
  ramSize := hsize
  ramForm := Memory.wf_ofCells _ _
  ramFits := Memory.below_ofCells _ _
  romForm := hform
  romFits := hfits
  cyclesCount := rfl
  eventNumbers _ _ h := nomatch h
  switchEntries _ h := nomatch h
  iiPlusSwitches _ := powerOnSwitches_iieOnly _

theorem coldReset_inv {s : State} (draws : PowerOnDraws) (h : s.Inv) : (coldReset draws s).Inv :=
  powerOnReset_inv ((atPowerOn_inv draws h.ramSize h.romForm h.romFits).congr rfl rfl rfl rfl rfl rfl fun _ _ hf => hf)

/-- Settles O57: each way a step answers a next state is a reset, or a run of bus cycles from the state the boundary's
events leave. -/
theorem everyStepKeepsTheInvariant : Obligations.EveryStepKeepsTheInvariant := by
  intro s t hs h
  have hevents := eventsState_inv hs
  obtain ⟨_, _, ⟨_, rfl⟩ | ⟨_, _, ⟨_, rfl⟩ | ⟨d, _, rfl⟩ | ⟨_, _, _, rfl⟩ | ⟨_, hi⟩⟩⟩ := step_cases h
  case inl => exact powerOnReset_inv hs
  case inr.inl => exact resetSequence_inv hevents
  case inr.inr.inl => exact coldReset_inv d hevents
  case inr.inr.inr.inl =>
    obtain ⟨_, _, hrun⟩ := irqEntry_run (eventsState s)
    exact hrun.inv hevents
  case inr.inr.inr.inr =>
    obtain ⟨_, t', ht, hrun⟩ := instructionStep_run (eventsState s)
    cases hi.symm.trans ht
    exact hrun.inv hevents

/-! ### The reset state -/

theorem reset_inv : State.reset.Inv where
  ramSize := rfl
  ramForm := rfl
  ramFits := rfl
  romForm := rfl
  romFits := rfl
  cyclesCount := rfl
  eventNumbers k e h := by
    have hnumbered : ∀ k : Fin 8, resetBuslog[k].cycle = k := by decide
    obtain ⟨hk, rfl⟩ := List.getElem?_eq_some_iff.1 h
    exact hnumbered ⟨k, hk⟩
  switchEntries _ h := nomatch h
  iiPlusSwitches h := nomatch h

/-- The launch that `State.reset` is the first step of (logs 5 to 8): an all-zero image is the empty store. -/
theorem launch_zeros (draws : PowerOnDraws) : State.launch defaultConfig (List.replicate 16384 0x00) draws =
    State.atPowerOn defaultConfig [] draws := by
  have hrefusal : launchRefusal defaultConfig (List.replicate 16384 0x00) = none := by
    unfold launchRefusal
    rw [List.length_replicate]
    rfl
  unfold State.launch
  rw [hrefusal, show (0x00 : Byte) = Memory.unlisted from rfl, Memory.ofImage_zeros]
  rfl

/-- Settles O56: the reset state is evaluated, and so is the power-on step to it once its ROM is the empty store. -/
theorem resetStateIsInvariant : Obligations.ResetStateIsInvariant := by
  refine ⟨reset_inv, rfl, fun f => ?_, rfl, rfl, rfl, rfl, rfl, ?_⟩
  · cases f <;> rfl
  · rw [launch_zeros]
    rfl

end Sys2Proof.Machine
end

section
/-! SUPPORT. What an instruction may write. Each operation is the composition of bus cycles and register updates, so the
components it writes are those of its parts; the lists of 10_state.md R28 hold for every instruction by case analysis of
what its operation does (`exec_meaning`, `Meaning.writesListed`), from which O43, O44 and O45 follow. -/

namespace Sys2Proof.Machine

/-! ### What each operation does -/

/-- What an instruction of an operation in a mode leaves of `s`. A memory operand comes as its `ReadMode`, `WriteMode` or
`RmwMode`; of these only the accumulator form of a shift or rotate is held to the mode. -/
inductive Meaning (s : State) (mode : Mode) : Operation → State → Prop
  | adc (m : ReadMode) : Meaning s mode .adc (addToA m s)
  | and (m : ReadMode) : Meaning s mode .and (combineA m (fun a v => a &&& v) s)
  | asl (m : RmwMode) (h : m = .acc ↔ mode = .acc) : Meaning s mode .asl (shiftOp m shiftLeft 7 s)
  | bcc (d : Byte) : Meaning s mode .bcc (branchIf (!s.p.c) d s)
  | bcs (d : Byte) : Meaning s mode .bcs (branchIf s.p.c d s)
  | beq (d : Byte) : Meaning s mode .beq (branchIf s.p.z d s)
  | bit (m : ReadMode) : Meaning s mode .bit (testBits m s)
  | bmi (d : Byte) : Meaning s mode .bmi (branchIf s.p.n d s)
  | bne (d : Byte) : Meaning s mode .bne (branchIf (!s.p.z) d s)
  | bpl (d : Byte) : Meaning s mode .bpl (branchIf (!s.p.n) d s)
  | brk : Meaning s mode .brk (breakEntry s)
  | bvc (d : Byte) : Meaning s mode .bvc (branchIf (!s.p.v) d s)
  | bvs (d : Byte) : Meaning s mode .bvs (branchIf s.p.v d s)
  | clc : Meaning s mode .clc ((impliedCycle s).setFlags { s.p with c := false })
  | cld : Meaning s mode .cld ((impliedCycle s).setFlags { s.p with d := false })
  | cli : Meaning s mode .cli ((impliedCycle s).setFlags { s.p with i := false })
  | clv : Meaning s mode .clv ((impliedCycle s).setFlags { s.p with v := false })
  | cmp (m : ReadMode) : Meaning s mode .cmp (compareWith s.a m s)
  | cpx (m : ReadMode) : Meaning s mode .cpx (compareWith s.x m s)
  | cpy (m : ReadMode) : Meaning s mode .cpy (compareWith s.y m s)
  | dec (m : RmwMode) (h : m ≠ .acc) : Meaning s mode .dec (stepMemory m (fun v => v - 1) s)
  | dex : Meaning s mode .dex (((impliedCycle s).setX (s.x - 1)).setNZ (s.x - 1))
  | dey : Meaning s mode .dey (((impliedCycle s).setY (s.y - 1)).setNZ (s.y - 1))
  | eor (m : ReadMode) : Meaning s mode .eor (combineA m (fun a v => a ^^^ v) s)
  | inc (m : RmwMode) (h : m ≠ .acc) : Meaning s mode .inc (stepMemory m (fun v => v + 1) s)
  | inx : Meaning s mode .inx (((impliedCycle s).setX (s.x + 1)).setNZ (s.x + 1))
  | iny : Meaning s mode .iny (((impliedCycle s).setY (s.y + 1)).setNZ (s.y + 1))
  | jmpAbs (target : Word) : Meaning s mode .jmp (s.setPc target)
  | jmpInd (ptr : Word) : Meaning s mode .jmp (jumpIndirect ptr s)
  | jsr (target : Word) : Meaning s mode .jsr (callSubroutine target s)
  | lda (m : ReadMode) : Meaning s mode .lda (loadA m s)
  | ldx (m : ReadMode) : Meaning s mode .ldx (loadX m s)
  | ldy (m : ReadMode) : Meaning s mode .ldy (loadY m s)
  | lsr (m : RmwMode) (h : m = .acc ↔ mode = .acc) : Meaning s mode .lsr (shiftOp m shiftRight 0 s)
  | nop : Meaning s mode .nop (impliedCycle s)
  | ora (m : ReadMode) : Meaning s mode .ora (combineA m (fun a v => a ||| v) s)
  | pha : Meaning s mode .pha (push s.a (impliedCycle s))
  | php : Meaning s mode .php (push (packP true s.p) (impliedCycle s))
  | pla : Meaning s mode .pla (pullA s)
  | plp : Meaning s mode .plp (pullFlags s)
  | rol (m : RmwMode) (h : m = .acc ↔ mode = .acc) : Meaning s mode .rol (shiftOp m (rotateLeft s.p.c) 7 s)
  | ror (m : RmwMode) (h : m = .acc ↔ mode = .acc) : Meaning s mode .ror (shiftOp m (rotateRight s.p.c) 0 s)
  | rti : Meaning s mode .rti (returnFromInterrupt s)
  | rts : Meaning s mode .rts (returnFromSubroutine s)
  | sbc (m : ReadMode) : Meaning s mode .sbc (subtractFromA m s)
  | sec : Meaning s mode .sec ((impliedCycle s).setFlags { s.p with c := true })
  | sed : Meaning s mode .sed ((impliedCycle s).setFlags { s.p with d := true })
  | sei : Meaning s mode .sei ((impliedCycle s).setFlags { s.p with i := true })
  | sta (m : WriteMode) : Meaning s mode .sta (writeOp m s.a s)
  | stx (m : WriteMode) : Meaning s mode .stx (writeOp m s.x s)
  | sty (m : WriteMode) : Meaning s mode .sty (writeOp m s.y s)
  | tax : Meaning s mode .tax (((impliedCycle s).setX s.a).setNZ s.a)
  | tay : Meaning s mode .tay (((impliedCycle s).setY s.a).setNZ s.a)
  | tsx : Meaning s mode .tsx (((impliedCycle s).setX s.sp).setNZ s.sp)
  | txa : Meaning s mode .txa (((impliedCycle s).setA s.x).setNZ s.x)
  | txs : Meaning s mode .txs ((impliedCycle s).setSp s.x)
  | tya : Meaning s mode .tya (((impliedCycle s).setA s.y).setNZ s.y)
  | ill : Meaning s mode .ill (breakEntry s)

/-- Inversion of `exec`: every instruction completes, and does what its operation in its mode does. -/
theorem exec_meaning (i : Instr) (s : State) : ∃ t, exec i s = .next t ∧ Meaning s i.row.mode i.row.op t := by
  cases i
  case adcIzx | adcZp | adcImm | adcAbs | adcIzy | adcZpx | adcAby | adcAbx => exact ⟨_, rfl, .adc _⟩
  case andIzx | andZp | andImm | andAbs | andIzy | andZpx | andAby | andAbx => exact ⟨_, rfl, .and _⟩
  case aslAcc => exact ⟨_, rfl, .asl _ (iff_of_true rfl rfl)⟩
  case aslZp | aslAbs | aslZpx | aslAbx => exact ⟨_, rfl, .asl _ (iff_of_false nofun nofun)⟩
  case bcc => exact ⟨_, rfl, .bcc _⟩
  case bcs => exact ⟨_, rfl, .bcs _⟩
  case beq => exact ⟨_, rfl, .beq _⟩
  case bitZp | bitAbs => exact ⟨_, rfl, .bit _⟩
  case bmi => exact ⟨_, rfl, .bmi _⟩
  case bne => exact ⟨_, rfl, .bne _⟩
  case bpl => exact ⟨_, rfl, .bpl _⟩
  case brk => exact ⟨_, rfl, .brk⟩
  case bvc => exact ⟨_, rfl, .bvc _⟩
  case bvs => exact ⟨_, rfl, .bvs _⟩
  case clc => exact ⟨_, rfl, .clc⟩
  case cld => exact ⟨_, rfl, .cld⟩
  case cli => exact ⟨_, rfl, .cli⟩
  case clv => exact ⟨_, rfl, .clv⟩
  case cmpIzx | cmpZp | cmpImm | cmpAbs | cmpIzy | cmpZpx | cmpAby | cmpAbx => exact ⟨_, rfl, .cmp _⟩
  case cpxImm | cpxZp | cpxAbs => exact ⟨_, rfl, .cpx _⟩
  case cpyImm | cpyZp | cpyAbs => exact ⟨_, rfl, .cpy _⟩
  case decZp | decAbs | decZpx | decAbx => exact ⟨_, rfl, .dec _ nofun⟩
  case dex => exact ⟨_, rfl, .dex⟩
  case dey => exact ⟨_, rfl, .dey⟩
  case eorIzx | eorZp | eorImm | eorAbs | eorIzy | eorZpx | eorAby | eorAbx => exact ⟨_, rfl, .eor _⟩
  case incZp | incAbs | incZpx | incAbx => exact ⟨_, rfl, .inc _ nofun⟩
  case inx => exact ⟨_, rfl, .inx⟩
  case iny => exact ⟨_, rfl, .iny⟩
  case jmpAbs => exact ⟨_, rfl, .jmpAbs _⟩
  case jmpInd => exact ⟨_, rfl, .jmpInd _⟩
  case jsr => exact ⟨_, rfl, .jsr _⟩
  case ldaIzx | ldaZp | ldaImm | ldaAbs | ldaIzy | ldaZpx | ldaAby | ldaAbx => exact ⟨_, rfl, .lda _⟩
  case ldxImm | ldxZp | ldxAbs | ldxZpy | ldxAby => exact ⟨_, rfl, .ldx _⟩
  case ldyImm | ldyZp | ldyAbs | ldyZpx | ldyAbx => exact ⟨_, rfl, .ldy _⟩
  case lsrAcc => exact ⟨_, rfl, .lsr _ (iff_of_true rfl rfl)⟩
  case lsrZp | lsrAbs | lsrZpx | lsrAbx => exact ⟨_, rfl, .lsr _ (iff_of_false nofun nofun)⟩
  case nop => exact ⟨_, rfl, .nop⟩
  case oraIzx | oraZp | oraImm | oraAbs | oraIzy | oraZpx | oraAby | oraAbx => exact ⟨_, rfl, .ora _⟩
  case pha => exact ⟨_, rfl, .pha⟩
  case php => exact ⟨_, rfl, .php⟩
  case pla => exact ⟨_, rfl, .pla⟩
  case plp => exact ⟨_, rfl, .plp⟩
  case rolAcc => exact ⟨_, rfl, .rol _ (iff_of_true rfl rfl)⟩
  case rolZp | rolAbs | rolZpx | rolAbx => exact ⟨_, rfl, .rol _ (iff_of_false nofun nofun)⟩
  case rorAcc => exact ⟨_, rfl, .ror _ (iff_of_true rfl rfl)⟩
  case rorZp | rorAbs | rorZpx | rorAbx => exact ⟨_, rfl, .ror _ (iff_of_false nofun nofun)⟩
  case rti => exact ⟨_, rfl, .rti⟩
  case rts => exact ⟨_, rfl, .rts⟩
  case sbcIzx | sbcZp | sbcImm | sbcAbs | sbcIzy | sbcZpx | sbcAby | sbcAbx => exact ⟨_, rfl, .sbc _⟩
  case sec => exact ⟨_, rfl, .sec⟩
  case sed => exact ⟨_, rfl, .sed⟩
  case sei => exact ⟨_, rfl, .sei⟩
  case staIzx | staZp | staAbs | staIzy | staZpx | staAby | staAbx => exact ⟨_, rfl, .sta _⟩
  case stxZp | stxAbs | stxZpy => exact ⟨_, rfl, .stx _⟩
  case styZp | styAbs | styZpx => exact ⟨_, rfl, .sty _⟩
  case tax => exact ⟨_, rfl, .tax⟩
  case tay => exact ⟨_, rfl, .tay⟩
  case tsx => exact ⟨_, rfl, .tsx⟩
  case txa => exact ⟨_, rfl, .txa⟩
  case txs => exact ⟨_, rfl, .txs⟩
  case tya => exact ⟨_, rfl, .tya⟩
  -- what is left are the undocumented bytes (46_illegal_opcodes.md R300)
  all_goals exact ⟨_, rfl, .ill⟩

theorem meaning_of_exec {i : Instr} {s t : State} (h : exec i s = .next t) : Meaning s i.row.mode i.row.op t := by
  obtain ⟨t', ht, hm⟩ := exec_meaning i s
  cases h.symm.trans ht
  exact hm

/-! ### Components of the state and what changes them -/

/-- A register, a flag or RAM. -/
inductive Component where
  | a | x | y | sp | pc | n | v | d | i | z | c | ram

/-- The component is the same in both states. -/
def Component.Kept (s t : State) : Component → Prop
  | .a => t.a = s.a
  | .x => t.x = s.x
  | .y => t.y = s.y
  | .sp => t.sp = s.sp
  | .pc => t.pc = s.pc
  | .n => t.p.n = s.p.n
  | .v => t.p.v = s.p.v
  | .d => t.p.d = s.p.d
  | .i => t.p.i = s.p.i
  | .z => t.p.z = s.p.z
  | .c => t.p.c = s.p.c
  | .ram => t.ram = s.ram

/-- Every component but the listed ones is the same. -/
def KeptBut (ws : List Component) (s t : State) : Prop := ∀ f, f ∉ ws → f.Kept s t

theorem Component.Kept.trans {s t u : State} : ∀ {f : Component}, f.Kept s t → f.Kept t u → f.Kept s u
  | .a, h, h' | .x, h, h' | .y, h, h' | .sp, h, h' | .pc, h, h' | .n, h, h' | .v, h, h' | .d, h, h' | .i, h, h'
  | .z, h, h' | .c, h, h' | .ram, h, h' => Eq.trans h' h

theorem KeptBut.trans {ws ws' : List Component} {s t u : State} (h : KeptBut ws s t) (h' : KeptBut ws' t u) :
    KeptBut (ws' ++ ws) s u := fun f hf =>
  (h f fun hm => hf (List.mem_append_right _ hm)).trans (h' f fun hm => hf (List.mem_append_left _ hm))

theorem KeptBut.mono {ws ws' : List Component} {s t : State} (hsub : ws ⊆ ws') (h : KeptBut ws s t) : KeptBut ws' s t :=
  fun f hf => h f fun hm => hf (hsub hm)

section
variable (s : State)

theorem setA_keptBut (v : Byte) : KeptBut [.a] s (s.setA v) := by intro f hf; cases f <;> simp_all [Component.Kept]

theorem setX_keptBut (v : Byte) : KeptBut [.x] s (s.setX v) := by intro f hf; cases f <;> simp_all [Component.Kept]

theorem setY_keptBut (v : Byte) : KeptBut [.y] s (s.setY v) := by intro f hf; cases f <;> simp_all [Component.Kept]

theorem setSp_keptBut (v : Byte) : KeptBut [.sp] s (s.setSp v) := by intro f hf; cases f <;> simp_all [Component.Kept]

theorem setPc_keptBut (w : Word) : KeptBut [.pc] s (s.setPc w) := by intro f hf; cases f <;> simp_all [Component.Kept]

theorem setFlags_keptBut (p : Flags) : KeptBut [.n, .v, .d, .i, .z, .c] s (s.setFlags p) := by
  intro f hf; cases f <;> simp_all [Component.Kept]

theorem setNZ_keptBut (v : Byte) : KeptBut [.n, .z] s (s.setNZ v) := by
  intro f hf; cases f <;> simp_all [Component.Kept, Flags.setNZ]

theorem setAlu_keptBut (r : AluResult) : KeptBut [.n, .v, .z, .c] s (s.setFlags (s.p.setAlu r)) := by
  intro f hf; cases f <;> simp_all [Component.Kept, Flags.setAlu]

theorem setCompare_keptBut (r m : Byte) : KeptBut [.n, .z, .c] s (s.setFlags (s.p.setCompare r m)) := by
  intro f hf; cases f <;> simp_all [Component.Kept, Flags.setCompare]

theorem setShift_keptBut (carry : Bool) (r : Byte) : KeptBut [.n, .z, .c] s (s.setFlags (s.p.setShift carry r)) := by
  intro f hf; cases f <;> simp_all [Component.Kept, Flags.setShift, Flags.setNZ]

theorem setBit_keptBut (a m : Byte) : KeptBut [.n, .v, .z] s (s.setFlags (s.p.setBit a m)) := by
  intro f hf; cases f <;> simp_all [Component.Kept, Flags.setBit]

theorem setC_keptBut (b : Bool) : KeptBut [.c] s (s.setFlags { s.p with c := b }) := by
  intro f hf; cases f <;> simp_all [Component.Kept]

theorem setD_keptBut (b : Bool) : KeptBut [.d] s (s.setFlags { s.p with d := b }) := by
  intro f hf; cases f <;> simp_all [Component.Kept]

theorem setI_keptBut (b : Bool) : KeptBut [.i] s (s.setFlags { s.p with i := b }) := by
  intro f hf; cases f <;> simp_all [Component.Kept]

theorem setV_keptBut (b : Bool) : KeptBut [.v] s (s.setFlags { s.p with v := b }) := by
  intro f hf; cases f <;> simp_all [Component.Kept]

end

/-- Bus cycles write RAM alone. -/
theorem Cycles.keptBut {s u : State} {es : List BusEvent} (h : Cycles s es u) : KeptBut [.ram] s u := by
  intro f hf
  cases f
  case a => exact h.a_eq
  case x => exact h.x_eq
  case y => exact h.y_eq
  case sp => exact h.sp_eq
  case pc => exact h.pc_eq
  case ram => exact absurd (List.mem_singleton.2 rfl) hf
  all_goals simp only [Component.Kept, h.p_eq]

/-- Read cycles write nothing. -/
theorem Cycles.keptBut_of_reads {s u : State} {es : List BusEvent} (h : Cycles s es u) (hr : ∀ e ∈ es, e.type = .peek) :
    KeptBut [] s u := by
  intro f _
  cases f
  case ram => exact (h.ram_of_reads hr).1
  all_goals exact h.keptBut _ (by simp)

/-! ### Operands, the stack and the shared sequences -/

theorem afterRead_keptBut (addr : Word) (s : State) : KeptBut [] s (afterRead addr s) :=
  (Cycles.read_one addr s).keptBut_of_reads (by simp [peekEvent])

theorem memWrite_keptBut (addr : Word) (v : Byte) (s : State) : KeptBut [.ram] s (memWrite addr v s) :=
  (Cycles.write_one addr v s).keptBut

theorem readOp_keptBut (m : ReadMode) (s : State) : KeptBut [] s (readOp m s).2 := by
  obtain ⟨es, hreads, h⟩ := readOp_spec m s
  exact h.keptBut_of_reads hreads.reads

theorem writeOp_keptBut (m : WriteMode) (v : Byte) (s : State) : KeptBut [.ram] s (writeOp m v s) := by
  obtain ⟨_, _, _, _, _, h⟩ := writeOp_spec m v s
  exact h.keptBut

theorem rmwOp_keptBut {m : RmwMode} (hm : m ≠ .acc) (f : Byte → Byte) (s : State) :
    KeptBut [.ram] s (rmwOp m f s).2 := by
  obtain ⟨_, _, _, h⟩ := rmwOp_spec m f s hm
  exact h.keptBut

theorem rmwOp_acc_keptBut (f : Byte → Byte) (s : State) : KeptBut [.a] s (rmwOp .acc f s).2 :=
  (afterRead_keptBut s.pc s).trans (setA_keptBut _ _)

theorem push_keptBut (v : Byte) (s : State) : KeptBut [.sp, .ram] s (push v s) :=
  (memWrite_keptBut _ v s).trans (setSp_keptBut _ _)

theorem pull_keptBut (s : State) : KeptBut [.sp] s (pull s).2 :=
  (setSp_keptBut s _).trans (afterRead_keptBut _ _)

theorem breakEntry_keptBut (s : State) : KeptBut [.pc, .sp, .i, .ram] s (breakEntry s) := by
  obtain ⟨es, target, u, _, hu, h⟩ := enter_spec irqVector (fetch s).2.pc true (fetch s).2
  have hfetch : KeptBut [.pc] s (fetch s).2 := (afterRead_keptBut s.pc s).trans (setPc_keptBut _ _)
  intro f hf
  refine ((hfetch.trans hu.keptBut) f (by simp_all)).trans ?_
  rw [show breakEntry s = _ from h, ← hu.p_eq]
  cases f <;> simp_all [Component.Kept]

/-! ### The operations -/

section
variable (s : State)

theorem loadA_keptBut (m : ReadMode) : KeptBut [.n, .z, .a] s (loadA m s) :=
  ((readOp_keptBut m s).trans (setA_keptBut _ _)).trans (setNZ_keptBut _ _)

theorem loadX_keptBut (m : ReadMode) : KeptBut [.n, .z, .x] s (loadX m s) :=
  ((readOp_keptBut m s).trans (setX_keptBut _ _)).trans (setNZ_keptBut _ _)

theorem loadY_keptBut (m : ReadMode) : KeptBut [.n, .z, .y] s (loadY m s) :=
  ((readOp_keptBut m s).trans (setY_keptBut _ _)).trans (setNZ_keptBut _ _)

theorem combineA_keptBut (m : ReadMode) (op : Byte → Byte → Byte) : KeptBut [.n, .z, .a] s (combineA m op s) :=
  ((readOp_keptBut m s).trans (setA_keptBut _ _)).trans (setNZ_keptBut _ _)

theorem addToA_keptBut (m : ReadMode) : KeptBut [.n, .v, .z, .c, .a] s (addToA m s) :=
  ((readOp_keptBut m s).trans (setA_keptBut _ _)).trans (setAlu_keptBut _ _)

theorem subtractFromA_keptBut (m : ReadMode) : KeptBut [.n, .v, .z, .c, .a] s (subtractFromA m s) :=
  ((readOp_keptBut m s).trans (setA_keptBut _ _)).trans (setAlu_keptBut _ _)

theorem compareWith_keptBut (r : Byte) (m : ReadMode) : KeptBut [.n, .z, .c] s (compareWith r m s) :=
  (readOp_keptBut m s).trans (setCompare_keptBut _ _ _)

theorem testBits_keptBut (m : ReadMode) : KeptBut [.n, .v, .z] s (testBits m s) :=
  (readOp_keptBut m s).trans (setBit_keptBut _ _ _)

theorem stepMemory_keptBut {m : RmwMode} (hm : m ≠ .acc) (f : Byte → Byte) :
    KeptBut [.n, .z, .ram] s (stepMemory m f s) :=
  (rmwOp_keptBut hm f s).trans (setNZ_keptBut _ _)

theorem shiftOp_keptBut {m : RmwMode} (hm : m ≠ .acc) (f : Byte → Byte) (bit : Nat) :
    KeptBut [.n, .z, .c, .ram] s (shiftOp m f bit s) :=
  (rmwOp_keptBut hm f s).trans (setShift_keptBut _ _ _)

theorem shiftOp_acc_keptBut (f : Byte → Byte) (bit : Nat) : KeptBut [.n, .z, .c, .a] s (shiftOp .acc f bit s) :=
  (rmwOp_acc_keptBut f s).trans (setShift_keptBut _ _ _)

theorem branchIf_keptBut (cond : Bool) (d : Byte) : KeptBut [.pc] s (branchIf cond d s) := by
  unfold branchIf
  split
  · dsimp only
    split
    · exact ((afterRead_keptBut _ _).trans (afterRead_keptBut _ _)).trans (setPc_keptBut _ _)
    · exact (afterRead_keptBut _ _).trans (setPc_keptBut _ _)
  · exact setPc_keptBut s s.pc

theorem jumpIndirect_keptBut (ptr : Word) : KeptBut [.pc] s (jumpIndirect ptr s) :=
  ((afterRead_keptBut _ _).trans (afterRead_keptBut _ _)).trans (setPc_keptBut _ _)

theorem callSubroutine_keptBut (w : Word) : KeptBut [.pc, .sp, .ram] s (callSubroutine w s) :=
  KeptBut.mono (by simp) <|
  ((((afterRead_keptBut _ _).trans (push_keptBut _ _)).trans (push_keptBut _ _)).trans
    (afterRead_keptBut _ _)).trans (setPc_keptBut _ _)

theorem returnFromSubroutine_keptBut : KeptBut [.pc, .sp] s (returnFromSubroutine s) :=
  KeptBut.mono (by simp) <|
  (((((afterRead_keptBut _ _).trans (afterRead_keptBut _ _)).trans (pull_keptBut _)).trans (pull_keptBut _)).trans
    (afterRead_keptBut _ _)).trans (setPc_keptBut _ _)

theorem pullByte_keptBut : KeptBut [.sp] s (pullByte s).2 :=
  ((afterRead_keptBut _ _).trans (afterRead_keptBut _ _)).trans (pull_keptBut _)

theorem pullA_keptBut : KeptBut [.n, .z, .a, .sp] s (pullA s) :=
  ((pullByte_keptBut s).trans (setA_keptBut _ _)).trans (setNZ_keptBut _ _)

theorem pullFlags_keptBut : KeptBut [.n, .v, .d, .i, .z, .c, .sp] s (pullFlags s) :=
  (pullByte_keptBut s).trans (setFlags_keptBut _ _)

theorem returnFromInterrupt_keptBut :
    KeptBut [.pc, .sp, .n, .v, .d, .i, .z, .c] s (returnFromInterrupt s) :=
  KeptBut.mono (by simp) <|
  ((((pullByte_keptBut s).trans (setFlags_keptBut _ _)).trans (pull_keptBut _)).trans (pull_keptBut _)).trans
    (setPc_keptBut _ _)

theorem pushAfter_keptBut (v : Byte) : KeptBut [.sp, .ram] s (push v (impliedCycle s)) :=
  (afterRead_keptBut _ _).trans (push_keptBut _ _)

/-- An implied-mode instruction that sets flags of its state writes those flags alone. -/
theorem impliedFlags_keptBut {s : State} {p : Flags} {ws : List Component} (h : KeptBut ws s (s.setFlags p)) :
    KeptBut ws s ((impliedCycle s).setFlags p) := by
  unfold impliedCycle dummyRead
  rw [← afterRead_setFlags]
  exact h.trans (afterRead_keptBut _ _)

theorem impliedA_keptBut (v : Byte) : KeptBut [.n, .z, .a] s (((impliedCycle s).setA v).setNZ v) :=
  ((afterRead_keptBut _ _).trans (setA_keptBut _ _)).trans (setNZ_keptBut _ _)

theorem impliedX_keptBut (v : Byte) : KeptBut [.n, .z, .x] s (((impliedCycle s).setX v).setNZ v) :=
  ((afterRead_keptBut _ _).trans (setX_keptBut _ _)).trans (setNZ_keptBut _ _)

theorem impliedY_keptBut (v : Byte) : KeptBut [.n, .z, .y] s (((impliedCycle s).setY v).setNZ v) :=
  ((afterRead_keptBut _ _).trans (setY_keptBut _ _)).trans (setNZ_keptBut _ _)

theorem impliedSp_keptBut (v : Byte) : KeptBut [.sp] s ((impliedCycle s).setSp v) :=
  (afterRead_keptBut _ _).trans (setSp_keptBut _ _)

end

/-! ### The listed writers -/

/-- Whether the rules list an operation in a mode as a writer of the component (10_state.md R20 to R28, 20_memory.md R67). -/
def Component.writtenBy (op : Operation) (mode : Mode) : Component → Bool
  | .a => writesA op mode
  | .x => decide (op ∈ [.ldx, .tax, .tsx, .inx, .dex])
  | .y => decide (op ∈ [.ldy, .tay, .iny, .dey])
  | .sp => decide (op ∈ [.txs, .pha, .php, .pla, .plp, .jsr, .rts, .rti, .brk, .ill])
  | .pc => decide (op ∈ [.bcc, .bcs, .beq, .bmi, .bne, .bpl, .bvc, .bvs, .jmp, .jsr, .rts, .rti, .brk, .ill])
  | .n | .z => writesNZ op
  | .v => decide (op ∈ [.adc, .sbc, .bit, .clv, .plp, .rti])
  | .d => decide (op ∈ [.cld, .sed, .plp, .rti])
  | .i => decide (op ∈ [.cli, .sei, .plp, .rti, .brk, .ill])
  | .c => decide (op ∈ [.adc, .sbc, .cmp, .cpx, .cpy, .asl, .lsr, .rol, .ror, .clc, .sec, .plp, .rti])
  | .ram => writesRam op mode

/-- Every component the operation is not listed for is the same. -/
def WritesListed (op : Operation) (mode : Mode) (s t : State) : Prop :=
  ∀ f : Component, f.writtenBy op mode = false → f.Kept s t

theorem KeptBut.writesListed {ws : List Component} {op : Operation} {mode : Mode} {s t : State} (h : KeptBut ws s t)
    (hws : ws.all (Component.writtenBy op mode) = true) : WritesListed op mode s t := fun f hf =>
  h f fun hm => Bool.false_ne_true (hf.symm.trans (List.all_eq_true.1 hws f hm))

/-- Every operation writes only what the rules list it for. -/
theorem Meaning.writesListed {s t : State} {op : Operation} {mode : Mode} (h : Meaning s mode op t) :
    WritesListed op mode s t := by
  cases h
  case lda m => exact (loadA_keptBut s m).writesListed rfl
  case ldx m => exact (loadX_keptBut s m).writesListed rfl
  case ldy m => exact (loadY_keptBut s m).writesListed rfl
  case sta m | stx m | sty m => exact (writeOp_keptBut m _ s).writesListed rfl
  case txa | tya => exact (impliedA_keptBut s _).writesListed rfl
  case tax | tsx | inx | dex => exact (impliedX_keptBut s _).writesListed rfl
  case tay | iny | dey => exact (impliedY_keptBut s _).writesListed rfl
  case txs => exact (impliedSp_keptBut s _).writesListed rfl
  case adc m => exact (addToA_keptBut s m).writesListed rfl
  case sbc m => exact (subtractFromA_keptBut s m).writesListed rfl
  case cmp m | cpx m | cpy m => exact (compareWith_keptBut s _ m).writesListed rfl
  case inc m hm | dec m hm => exact (stepMemory_keptBut s hm _).writesListed rfl
  case and m | ora m | eor m => exact (combineA_keptBut s m _).writesListed rfl
  case bit m => exact (testBits_keptBut s m).writesListed rfl
  case asl m h | lsr m h | rol m h | ror m h =>
    by_cases hm : m = .acc
    · obtain rfl := h.1 hm
      subst hm
      exact (shiftOp_acc_keptBut s _ _).writesListed rfl
    · have hmode := mt h.2 hm
      exact (shiftOp_keptBut s hm _ _).writesListed (by simp [Component.writtenBy, writesNZ, writesRam, hmode])
  case bpl d | bmi d | bvc d | bvs d | bcc d | bcs d | bne d | beq d => exact (branchIf_keptBut s _ d).writesListed rfl
  case jmpAbs target => exact (setPc_keptBut s target).writesListed rfl
  case jmpInd ptr => exact (jumpIndirect_keptBut s ptr).writesListed rfl
  case jsr target => exact (callSubroutine_keptBut s target).writesListed rfl
  case rts => exact (returnFromSubroutine_keptBut s).writesListed rfl
  case rti => exact (returnFromInterrupt_keptBut s).writesListed rfl
  case brk | ill => exact (breakEntry_keptBut s).writesListed rfl
  case pha | php => exact (pushAfter_keptBut s _).writesListed rfl
  case pla => exact (pullA_keptBut s).writesListed rfl
  case plp => exact (pullFlags_keptBut s).writesListed rfl
  case clc | sec => exact (impliedFlags_keptBut (setC_keptBut s _)).writesListed rfl
  case cld | sed => exact (impliedFlags_keptBut (setD_keptBut s _)).writesListed rfl
  case cli | sei => exact (impliedFlags_keptBut (setI_keptBut s _)).writesListed rfl
  case clv => exact (impliedFlags_keptBut (setV_keptBut s _)).writesListed rfl
  case nop => exact (afterRead_keptBut s.pc s).writesListed rfl


/-- Settles O43: the registers of `Meaning.writesListed`. -/
theorem registerWriters : Obligations.RegisterWriters := by
  intro i s t h
  have hw := (meaning_of_exec h).writesListed
  exact ⟨hw .a, fun hx => hw .x (decide_eq_false hx), fun hy => hw .y (decide_eq_false hy),
    fun hsp => hw .sp (decide_eq_false hsp), fun hpc => hw .pc (decide_eq_false hpc)⟩

/-- Settles O44: the flags of `Meaning.writesListed`. -/
theorem flagWriters : Obligations.FlagWriters := by
  intro i s t h
  have hw := (meaning_of_exec h).writesListed
  exact ⟨fun hnz => ⟨hw .n hnz, hw .z hnz⟩, fun hv => hw .v (decide_eq_false hv), fun hd => hw .d (decide_eq_false hd),
    fun hi => hw .i (decide_eq_false hi), fun hc => hw .c (decide_eq_false hc)⟩

/-- Settles O45: RAM by `Meaning.writesListed`, and what no run of bus cycles changes by `exec_run`. -/
theorem otherInstructionsKeepMemory : Obligations.OtherInstructionsKeepMemory := by
  intro i s t h
  obtain ⟨es, t', ht, hrun⟩ := exec_run i s
  cases h.symm.trans ht
  exact ⟨(meaning_of_exec h).writesListed .ram, hrun.rom, hrun.cfg, hrun.fault, hrun.refusal, hrun.powerOn, hrun.inputs⟩

end Sys2Proof.Machine
end

section
/-! SUPPORT. Pushes: each stores at one stack address and leaves the switches alone, so two or three in a row store at the
addresses the state before them resolves (O47). -/

namespace Sys2Proof.Machine

/-! ### RAM outside a list of offsets -/

theorem RamKeptBut.of_ram_eq {s t : State} (h : t.ram = s.ram) : RamKeptBut [] s t := fun k _ => by rw [h]

theorem RamKeptBut.trans {ts ts' : List (Option Nat)} {s t u : State} (h : RamKeptBut ts s t) (h' : RamKeptBut ts' t u) :
    RamKeptBut (ts ++ ts') s u := fun k hk =>
  (h' k fun hm => hk (List.mem_append_right _ hm)).trans (h k fun hm => hk (List.mem_append_left _ hm))

/-- A write cycle changes no byte but the one its address resolves to. -/
theorem memWrite_ramKeptBut (addr : Word) (v : Byte) (s : State) : RamKeptBut [storeTarget addr s] s (memWrite addr v s) := by
  intro k hk
  rw [memWrite_ram]
  by_contra hne
  obtain ⟨_, htarget⟩ := storedRam_other addr v s k hne
  exact hk (List.mem_singleton.2 htarget.symm)

/-! ### Pushes -/

/-- The stack is outside the I/O page (10_state.md R23). -/
theorem stackAddr_plain (k : Byte) : stackAddr k < 0xC000 ∨ 0xD000 ≤ stackAddr k := by
  left
  have := toNat_stackAddr k
  have := k.isLt
  change (stackAddr k).toNat < 0xC000
  omega

/-- Only the configuration and the switches decide where a write stores. -/
theorem storeTarget_congr {s t : State} (addr : Word) (hcfg : t.cfg = s.cfg) (hsw : t.sw = s.sw) :
    storeTarget addr t = storeTarget addr s := by
  unfold storeTarget
  rw [hcfg, hsw]

section
variable (v : Byte) (s : State)

@[simp] theorem push_sp : (push v s).sp = s.sp - 1 := rfl

theorem push_storeTarget (addr : Word) : storeTarget addr (push v s) = storeTarget addr s :=
  storeTarget_congr addr (memWrite_cfg _ v s) (memWrite_plain v s (stackAddr_plain s.sp)).1

theorem push_ramKeptBut : RamKeptBut [storeTarget (stackAddr s.sp) s] s (push v s) :=
  memWrite_ramKeptBut (stackAddr s.sp) v s

theorem push_push_ramKeptBut (w : Byte) :
    RamKeptBut [storeTarget (stackAddr s.sp) s, storeTarget (stackAddr (s.sp - 1)) s] s (push w (push v s)) := by
  have h := push_ramKeptBut w (push v s)
  rw [push_sp, push_storeTarget] at h
  exact (push_ramKeptBut v s).trans h

end

/-- An exception entry stores at the three stack addresses from S down (60_exceptions.md R313). -/
theorem enter_ramKeptBut (vector pushedPc : Word) (b : Bool) (s : State) :
    RamKeptBut [storeTarget (stackAddr s.sp) s, storeTarget (stackAddr (s.sp - 1)) s, storeTarget (stackAddr (s.sp - 2)) s] s
      (enter vector pushedPc b s) := by
  obtain ⟨s2, hs2⟩ : ∃ s2, s2 = push (loByte pushedPc) (push (hiByte pushedPc) s) := ⟨_, rfl⟩
  have h2 := push_push_ramKeptBut (hiByte pushedPc) s (loByte pushedPc)
  have h3 := push_ramKeptBut (packP b s2.p) s2
  have hsp : s.sp - 1 - 1 = s.sp - 2 := by rw [BitVec.sub_sub]; rfl
  obtain ⟨_, hreads, _, hjump⟩ := jumpThrough_run vector (saveContext pushedPc b s)
  have hvector : RamKeptBut [] (saveContext pushedPc b s) (enter vector pushedPc b s) :=
    .of_ram_eq (hjump.ram_of_reads hreads)
  have hsave : (saveContext pushedPc b s).ram = (push (packP b s2.p) s2).ram := by rw [hs2]; rfl
  rw [← hs2] at h2
  rw [hs2, push_sp, push_sp, push_storeTarget, push_storeTarget, hsp, ← hs2] at h3
  exact ((h2.trans h3).trans (.of_ram_eq hsave)).trans hvector

theorem afterRead_ramKeptBut (addr : Word) (s : State) : RamKeptBut [] s (afterRead addr s) :=
  .of_ram_eq (afterRead_ram addr s)

theorem breakEntry_ramKeptBut (s : State) :
    let s1 := afterRead s.pc s
    RamKeptBut [storeTarget (stackAddr s.sp) s1, storeTarget (stackAddr (s.sp - 1)) s1, storeTarget (stackAddr (s.sp - 2)) s1]
      s (breakEntry s) := by
  have h := enter_ramKeptBut irqVector (s.pc + 1) true (fetch s).2
  have hsp : (fetch s).2.sp = s.sp := afterRead_sp s.pc s
  rw [hsp] at h
  exact (afterRead_ramKeptBut s.pc s).trans h

/-- The first cycle of JSR is a stack read, which moves no switch, so its pushes resolve as before it (R260). -/
theorem callSubroutine_ramKeptBut (target : Word) (s : State) :
    RamKeptBut [storeTarget (stackAddr s.sp) s, storeTarget (stackAddr (s.sp - 1)) s] s (callSubroutine target s) := by
  obtain ⟨s1, hs1⟩ : ∃ s1, s1 = afterRead (stackAddr s.sp) s := ⟨_, rfl⟩
  have hread : RamKeptBut [] s s1 := hs1 ▸ afterRead_ramKeptBut (stackAddr s.sp) s
  have hsp : s1.sp = s.sp := by rw [hs1, afterRead_sp]
  have htarget : ∀ addr, storeTarget addr s1 = storeTarget addr s := fun addr => by
    rw [hs1, storeTarget_congr addr (afterRead_cfg _ s) (afterRead_plain s (stackAddr_plain s.sp)).1]
  have hpush := push_push_ramKeptBut (hiByte s.pc) s1 (loByte s.pc)
  rw [hsp, htarget, htarget] at hpush
  have hlast := afterRead_ramKeptBut (push (loByte s.pc) (push (hiByte s.pc) s1)).pc
    (push (loByte s.pc) (push (hiByte s.pc) s1))
  subst hs1
  exact (hread.trans hpush).trans hlast

theorem pushAfter_ramKeptBut (v : Byte) (s : State) :
    RamKeptBut [storeTarget (stackAddr s.sp) (afterRead s.pc s)] s (push v (impliedCycle s)) := by
  have h := push_ramKeptBut v (afterRead s.pc s)
  rw [afterRead_sp] at h
  exact (afterRead_ramKeptBut s.pc s).trans h

/-- An instruction that neither loads nor computes keeps A, X and Y. -/
theorem axy_of_push {i : Instr} {s t : State} (hop : i.row.op ∈ [.pha, .php, .jsr, .brk, .ill]) (h : exec i s = .next t) :
    t.a = s.a ∧ t.x = s.x ∧ t.y = s.y := by
  obtain ⟨ha, hx, hy, _⟩ := registerWriters i s t h
  simp only [List.mem_cons, List.not_mem_nil, or_false] at hop
  refine ⟨ha ?_, hx ?_, hy ?_⟩ <;> rcases hop with hop | hop | hop | hop | hop <;> simp [hop, writesA]

/-- BRK and the undocumented opcodes are the entry of BRK (46_illegal_opcodes.md R300). -/
theorem exec_of_break {i : Instr} {s t : State} (hop : i.row.op = .brk ∨ i.row.op = .ill) (h : exec i s = .next t) :
    t = breakEntry s := by
  have hm := meaning_of_exec h
  generalize i.row.op = op at hop hm
  rcases hop with rfl | rfl
  · cases hm; rfl
  · cases hm; rfl

/-- Settles O47: the pushes of each operation, and the registers of O43. -/
theorem pushesFrame : Obligations.PushesFrame := by
  intro s t slot kept
  have hsp : s.sp - 0 = s.sp := BitVec.sub_zero _
  simp only [kept, slot, hsp]
  refine ⟨fun h => ⟨?_, axy_of_push (.head _) h⟩, fun h => ⟨?_, axy_of_push (.tail _ (.head _)) h⟩,
    fun w h => ⟨?_, axy_of_push (.tail _ (.tail _ (.head _))) h⟩, fun i hop h => ⟨?_, axy_of_push ?_ h⟩⟩
  · cases h
    exact pushAfter_ramKeptBut s.a s
  · cases h
    exact pushAfter_ramKeptBut (packP true s.p) s
  · cases h
    exact callSubroutine_ramKeptBut w s
  · rw [exec_of_break hop h]
    exact breakEntry_ramKeptBut s
  · rcases hop with hop | hop <;> simp [hop]

end Sys2Proof.Machine
end

section
/-! SUPPORT. The status byte: its bits and what unpacking restores (O24). -/

namespace Sys2Proof.Machine

theorem getLsbD_flagBit (b : Bool) (k j : Nat) : (flagBit b k).getLsbD j = (decide (j < 8) && b && decide (j = k)) := by
  cases b
  · simp [flagBit]
  · rw [flagBit, if_pos rfl, BitVec.getLsbD_ofNat, Nat.testBit_two_pow, Bool.and_true]
    simp only [eq_comm]

/-- Each bit of P is the flag of its place, if any (10_state.md R27). -/
theorem getLsbD_packP (b : Bool) (p : Flags) (j : Nat) : (packP b p).getLsbD j = (decide (j < 8) &&
    (p.n && decide (j = 7) || p.v && decide (j = 6) || decide (j = 5) || b && decide (j = 4) || p.d && decide (j = 3) ||
      p.i && decide (j = 2) || p.z && decide (j = 1) || p.c && decide (j = 0))) := by
  simp only [packP, BitVec.getLsbD_or, getLsbD_flagBit, Bool.and_assoc, Bool.and_or_distrib_left, Bool.true_and]

/-- Unpacking restores the six stored flags. -/
theorem unpackP_packP (b : Bool) (p : Flags) : unpackP (packP b p) = p := by
  simp only [unpackP, getLsbD_packP]
  simp

/-- Packing again changes only bits 5 and 4, which have no storage (10_state.md R26). -/
theorem packP_unpackP (b : Bool) (v : Byte) : packP b (unpackP v) = (v &&& 0xCF) ||| (if b then 0x30 else 0x20) := by
  refine BitVec.eq_of_getLsbD_eq fun j hj => ?_
  rw [getLsbD_packP, BitVec.getLsbD_or, BitVec.getLsbD_and]
  interval_cases j <;> cases b <;> simp [unpackP]

/-- Settles O24: each bit by its place. -/
theorem statusPacking : Obligations.StatusPacking := by
  intro p b v q
  refine ⟨?_, ?_, ?_, ?_, ?_, ?_, ?_, ?_, unpackP_packP b p, rfl, packP_unpackP b v⟩
  all_goals
    rw [getLsbD_packP]
    simp

end Sys2Proof.Machine
end

section
/-! SUPPORT. Steps that answer at once: marked states, refused launches and END_PC (O54). -/

namespace Sys2Proof.Machine

theorem step_of_refusal {s : State} {r : Refusal} (h : s.refusal = some r) : step s = .refused r := by
  unfold step boundaryStep
  rw [h]

theorem step_of_fault {s : State} {f : Fault} (h : s.refusal = none) (hf : s.fault = some f) : step s = .fault f := by
  unfold step boundaryStep
  rw [h, hf]

/-- A launch that is refused has no step. -/
theorem step_launch_of_refusal {cfg : Config} {image : List Byte} {r : Refusal} (d : PowerOnDraws)
    (h : launchRefusal cfg image = some r) : step (State.launch cfg image d) = .refused r := step_of_refusal h

theorem step_of_endPc {s : State} (hr : s.refusal = none) (hf : s.fault = none) (hp : s.powerOn = false)
    (he : s.pc = s.cfg.endPc) : step s = .refused .runEnded := by
  unfold step boundaryStep
  rw [hr, hf]
  simp only [hp, Bool.false_eq_true, if_false, he, if_true]

/-- Settles O54: a mark is answered before anything else, and a refused launch carries one. -/
theorem markedStatesHaveNoStep : Obligations.MarkedStatesHaveNoStep := by
  refine ⟨fun s r => step_of_refusal, fun s f => step_of_fault, fun cfg image d => ⟨fun hrom => ?_, fun hrom hram => ?_⟩,
    fun s => step_of_endPc⟩
  · exact step_launch_of_refusal d (by simp [launchRefusal, hrom])
  · exact step_launch_of_refusal d (by simp [launchRefusal, hrom, hram])

end Sys2Proof.Machine
end

section
/-! SUPPORT. Fetching from plain addresses: a plain read changes nothing a later plain read shows, so the bytes fetched are
those a sneaky read shows before the step (O48). -/

namespace Sys2Proof.Machine

/-- Outside the I/O page nothing resolves to SLOTS (20_memory.md R56 to R60). -/
theorem resolve_kind_ne_slots {addr : Word} (h : addr < 0xC000 ∨ 0xD000 ≤ addr) (cfg : Config) (w : Bool)
    (sw : Registry) : (resolve cfg addr w sw).kind ≠ .slots := by
  have h' : addr.toNat < 0xC000 ∨ 0xD000 ≤ addr.toNat := h
  unfold resolve ioBase lcBase
  simp only
  split
  · simp
  split
  · omega
  (repeat' split) <;> simp

/-- A plain read cycle at one address moves nothing that a sneaky read at a plain address shows. -/
theorem sneakyRead_afterRead {s : State} {addr addr' : Word} (h : addr < 0xC000 ∨ 0xD000 ≤ addr)
    (h' : addr' < 0xC000 ∨ 0xD000 ≤ addr') : sneakyRead addr' (afterRead addr s) = sneakyRead addr' s := by
  have hk := resolve_kind_ne_slots h' s.cfg false s.sw
  unfold sneakyRead storageByte
  rw [afterRead_cfg, (afterRead_plain s h).1, afterRead_ram, afterRead_rom]
  split
  · next hs => exact absurd hs hk
  all_goals rfl

/-- The bytes listed from an address on are plain and are what sneaky reads show. -/
def ShowsFrom (addr : Word) (s : State) (bs : List Byte) : Prop :=
  ∀ (k : Nat) (b : Byte), bs[k]? = some b →
    PlainRead s (addr + BitVec.ofNat 16 k) ∧ sneakyRead (addr + BitVec.ofNat 16 k) s = b

theorem add_ofNat_succ (addr : Word) (k : Nat) : addr + BitVec.ofNat 16 (k + 1) = addr + 1 + BitVec.ofNat 16 k := by
  rw [Nat.add_comm, BitVec.ofNat_add, ← BitVec.add_assoc]
  rfl

theorem ShowsFrom.head {addr : Word} {s : State} {b : Byte} {bs : List Byte} (h : ShowsFrom addr s (b :: bs)) :
    PlainRead s addr ∧ readValue addr s = b := by
  obtain ⟨hplain, hb⟩ := h 0 b rfl
  rw [show addr + BitVec.ofNat 16 0 = addr from BitVec.add_zero addr] at hplain hb
  exact ⟨hplain, hplain.value.trans hb⟩

/-- Past the first byte, the rest is shown after the first has been read. -/
theorem ShowsFrom.tail {addr : Word} {s : State} {b : Byte} {bs : List Byte} (h : ShowsFrom addr s (b :: bs)) :
    ShowsFrom (addr + 1) (afterRead addr s) bs := by
  intro k c hc
  obtain ⟨⟨hhook, hrange⟩, hshown⟩ := h (k + 1) c hc
  rw [add_ofNat_succ] at hhook hrange hshown
  refine ⟨⟨by rw [afterRead_cfg]; exact hhook, hrange⟩, ?_⟩
  rw [sneakyRead_afterRead h.head.1.2 hrange, hshown]

/-- Reading shown bytes obtains them, and shows the ones after them. -/
theorem readsFrom_shown (bs bs' : List Byte) : ∀ {addr : Word} {s : State}, ShowsFrom addr s (bs ++ bs') →
    (readsFrom addr s bs.length).1.map BusEvent.value = bs ∧
      ShowsFrom (addr + BitVec.ofNat 16 bs.length) (readsFrom addr s bs.length).2 bs' := by
  induction bs with
  | nil =>
    intro addr s h
    simpa [readsFrom] using h
  | cons b bs ih =>
    intro addr s h
    obtain ⟨hvalues, hrest⟩ := ih h.tail
    refine ⟨congrArg₂ List.cons h.head.2 hvalues, ?_⟩
    rw [List.length_cons, add_ofNat_succ]
    exact hrest

/-- A byte list that is one whole instruction has as many operand bytes as the row of its first byte says. -/
theorem length_of_decode {op : Byte} {bs : List Byte} {i : Instr} (h : decode (op :: bs) = .ok (i, [])) :
    bs.length = (opcodeRow op).form.operandBytes := by
  cases hf : (opcodeRow op).form with
  | implied j => simp_all [decode, Form.operandBytes]
  | byte f =>
    match bs with
    | [] => simp [decode, hf] at h
    | b :: _ => simp_all [decode, Form.operandBytes]
  | word f =>
    match bs with
    | [] | [_] => simp [decode, hf] at h
    | b1 :: b2 :: _ => simp_all [decode, Form.operandBytes]

/-- The bytes of one whole instruction are those its fetch reads and, for JSR alone, a third (log 15). -/
theorem drop_fetchCount {op : Byte} {bs : List Byte} (h : bs.length = (opcodeRow op).form.operandBytes) :
    fetchCount op ≤ (op :: bs).length ∧
      ((op = 0x20 ∧ ∃ b, (op :: bs).drop (fetchCount op) = [b]) ∨ (op ≠ 0x20 ∧ (op :: bs).drop (fetchCount op) = [])) := by
  by_cases h20 : op = 0x20
  · subst h20
    obtain ⟨b1, b2, rfl⟩ := List.length_eq_two.1 (h : bs.length = 2)
    exact ⟨by simp [fetchCount], .inl ⟨rfl, b2, rfl⟩⟩
  · have hlen : (op :: bs).length = fetchCount op := by rw [List.length_cons, h, fetchCount, if_neg h20, Nat.add_comm]
    exact ⟨hlen.ge, .inr ⟨h20, List.drop_eq_nil_of_le hlen.le⟩⟩

/-- Where the bytes at PC are shown and decode to an instruction, fetching reads them one by one, leaves PC past them, and
answers that instruction; the third byte of JSR is shown but not read (log 15). -/
theorem fetchInstr_shown {s : State} {bs : List Byte} {i : Instr} (hdecode : decode bs = .ok (i, []))
    (hshown : ShowsFrom s.pc s bs) :
    let r := readsFrom s.pc s (fetchedBytes i)
    fetchInstr s = (i, r.2.setPc (s.pc + BitVec.ofNat 16 (fetchedBytes i))) ∧
      r.1.map BusEvent.value = bs.take (fetchedBytes i) := by
  cases bs with
  | nil => cases hdecode
  | cons op tl =>
    obtain ⟨w, hfetch, hbytes⟩ := fetchInstr_fill hshown.head.2
    obtain ⟨hcount, hdrop⟩ := drop_fetchCount (length_of_decode hdecode)
    rw [← List.take_append_drop (fetchCount op) (op :: tl)] at hshown
    obtain ⟨hvalues, hrest⟩ := readsFrom_shown _ _ hshown
    rw [List.length_take_of_le hcount] at hvalues hrest
    have hlast : (if op = 0x20 then [sneakyRead (s.pc + 2) (readsFrom s.pc s (fetchCount op)).2] else []) =
        (op :: tl).drop (fetchCount op) := by
      rcases hdrop with ⟨rfl, b, hb⟩ | ⟨h20, hnil⟩
      · rw [hb] at hrest ⊢
        exact congrArg (fun c => [c]) ((hrest.head.1.value).symm.trans hrest.head.2)
      · rw [hnil, if_neg h20]
    rw [hvalues, hlast, List.take_append_drop] at hbytes
    have hi : i = (opcodeRow op).form.fill w := by
      have h := decode_fill op w []
      rw [List.append_nil, ← hbytes, hdecode] at h
      cases h
      rfl
    rw [hi, fetchedBytes_fill]
    exact ⟨hfetch, hvalues⟩

/-- Settles O48: the step executes what it fetches, and where the bytes are shown that is what they decode to. -/
theorem stepRunsTheDecodedInstruction : Obligations.StepRunsTheDecodedInstruction := by
  intro s bs i hexec _ hdecode s1 hshown
  obtain ⟨hfetch, hvalues⟩ := fetchInstr_shown hdecode hshown
  refine ⟨_, _, readsFrom_length _ _ _, fun k e he => ⟨readsFrom_isRead _ _ _ k e he, ?_⟩, readsFrom_cycles _ _ _, ?_⟩
  · have hk : (bs.take (fetchedBytes i))[k]? = some e.value := by rw [← hvalues, List.getElem?_map, he]; rfl
    rw [List.getElem?_take] at hk
    split at hk
    · exact hk.symm
    · cases hk
  · rw [step_of_executes hexec]
    unfold instructionStep
    rw [hfetch]
    rfl

end Sys2Proof.Machine
end

section
/-! SUPPORT. The registry's primitives: what `set` and `set_and_notify` do (O14), and the fault an index outside 0..15 raises
at once and, at a boundary, in the step (O15). -/

namespace Sys2Proof.Machine

/-! ### Set and notify -/

theorem setAndNotify_sw (f : Switch) (b : Bool) (s : State) : (setAndNotify f b s).sw = s.sw.set f b := by
  rw [setAndNotify_eq]

theorem setAndNotify_swlog (f : Switch) (b : Bool) (s : State) :
    (setAndNotify f b s).swlog = if s.sw.get f = b then s.swlog else s.swlog ++ [⟨s.cycles, f, b⟩] := by
  unfold setAndNotify
  split <;> rfl

/-- Settles O14: both primitives are `Registry.set` on the switches, and `set_and_notify` differs in the log only. -/
theorem switchPrimitives : Obligations.SwitchPrimitives := by
  intro f g b s
  have hsame := Registry.get_set_same s.sw f b
  refine ⟨hsame, by rwa [setAndNotify_sw], fun hg => ?_, rfl, ?_⟩
  · have hother := Registry.get_set_other s.sw b hg
    exact ⟨hother, by rwa [setAndNotify_sw]⟩
  · rw [← setAndNotify_swlog]
    exact (setAndNotify_only f b s).frame

/-! ### Indices out of range -/

theorem registryGet_out {f : Nat} (h : 16 ≤ f) (s : State) : registryGet f s = .error (raiseFault .badSwitchIndex s) := by
  unfold registryGet
  rw [Switch.ofIndex_eq_none.2 h]

theorem registrySet_out {f : Nat} (h : 16 ≤ f) (b : Bool) (s : State) :
    registrySet f b s = raiseFault .badSwitchIndex s := by
  unfold registrySet
  rw [Switch.ofIndex_eq_none.2 h]

theorem registrySetAndNotify_out {f : Nat} (h : 16 ≤ f) (b : Bool) (s : State) :
    registrySetAndNotify f b s = raiseFault .badSwitchIndex s := by
  unfold registrySetAndNotify
  rw [Switch.ofIndex_eq_none.2 h]

theorem registryGet_index (g : Switch) (s : State) : registryGet g.index s = .ok (s.sw.get g) := by
  unfold registryGet
  rw [Switch.ofIndex_index]

theorem registrySet_index (g : Switch) (b : Bool) (s : State) : registrySet g.index b s = setSilent g b s := by
  unfold registrySet
  rw [Switch.ofIndex_index]

theorem registrySetAndNotify_index (g : Switch) (b : Bool) (s : State) :
    registrySetAndNotify g.index b s = setAndNotify g b s := by
  unfold registrySetAndNotify
  rw [Switch.ofIndex_index]

/-- Whatever indices stand before it, one that is out of range raises. -/
theorem registryReads_out {f : Nat} (hf : 16 ≤ f) (s : State) : ∀ {fs : List Nat}, f ∈ fs →
    (registryReads fs s).fault = some .badSwitchIndex
  | g :: fs, hmem => by
    unfold registryReads
    cases hg : Switch.ofIndex g with
    | none => rw [registryGet_out (Switch.ofIndex_eq_none.1 hg)]; rfl
    | some _ =>
      have hne : f ≠ g := by
        rintro rfl
        rw [Switch.ofIndex_eq_none.2 hf] at hg
        cases hg
      have hrest := registryReads_out hf s ((List.mem_cons.1 hmem).resolve_left hne)
      unfold registryGet
      rw [hg]
      exact hrest

theorem unlessFaulted_of_fault {f : State → State} {s : State} {k : Fault} (h : s.fault = some k) :
    unlessFaulted f s = s := by
  simp [unlessFaulted, h]

/-- A fault of the registry reads is the fault of the boundary's events: no sweep and no STEP check follows it. -/
theorem eventsState_fault_of_registryReads {s : State} {k : Fault}
    (h : (registryReads (boundaryInput s).registryReads (takeInput s)).fault = some k) :
    (eventsState s).fault = some k := by
  unfold eventsState boundaryEvents
  rwa [unlessFaulted_of_fault h, unlessFaulted_of_fault h]

/-- Settles O15: an index has a switch exactly when it is below 16, and the boundary's events keep the fault raised. -/
theorem switchIndexOutOfRange : Obligations.SwitchIndexOutOfRange := by
  refine ⟨fun f b s hf => ⟨registryGet_out hf s, registrySet_out hf b s, registrySetAndNotify_out hf b s⟩,
    fun g b s => ⟨registryGet_index g s, registrySet_index g b s, registrySetAndNotify_index g b s⟩,
    fun s f hrun hmem hf => ?_⟩
  exact step_of_event_fault hrun (eventsState_fault_of_registryReads (registryReads_out hf _ hmem))

end Sys2Proof.Machine
end

section
/-! SUPPORT. The resolver, said once: one equation per route (20_memory.md R56 to R60), the cases of an access (`Routed`), and
the resolution each RAM offset belongs to (R65, R66). From them O9, O10 and O11. -/

namespace Sys2Proof.Machine

/-! ### One equation per route -/

section
variable {cfg : Config} {addr : Word} {isWrite : Bool} {sw : Registry}

theorem resolve_main (h : addr.toNat < 0xC000) :
    resolve cfg addr isWrite sw = ⟨.main, addr.toNat, isAuxMain cfg addr.toNat isWrite sw⟩ :=
  if_pos h

theorem resolve_slots (hlo : 0xC000 ≤ addr.toNat) (hhi : addr.toNat < 0xD000) :
    resolve cfg addr isWrite sw = ⟨.slots, addr.toNat - 0xC000, false⟩ :=
  (if_neg (Nat.not_lt.2 hlo)).trans (if_pos hhi)

/-- From LC_BASE up the resolver first asks for ROM (20_memory.md R58 to R60). -/
theorem resolve_high (h : 0xD000 ≤ addr.toNat) :
    resolve cfg addr isWrite sw =
      if routeToRom cfg isWrite sw then ⟨.rom, addr.toNat - (0x10000 - cfg.romSize), false⟩
      else if sw.lcBank1 && decide (addr.toNat < 0xE000) then ⟨.lcBank1, addr.toNat - 0x1000, sw.altzp⟩
      else if addr.toNat < 0xE000 then ⟨.lcBank2, addr.toNat, sw.altzp⟩
      else ⟨.lcOther, addr.toNat, sw.altzp⟩ := by
  have hio : ¬ addr.toNat < 0xC000 := by omega
  exact (if_neg hio).trans (if_neg (Nat.not_lt.2 h))

theorem resolve_rom (h : 0xD000 ≤ addr.toNat) (hrom : routeToRom cfg isWrite sw = true) :
    resolve cfg addr isWrite sw = ⟨.rom, addr.toNat - (0x10000 - cfg.romSize), false⟩ := by
  rw [resolve_high h, if_pos hrom]

theorem resolve_lcBank1 (h : 0xD000 ≤ addr.toNat) (hrom : routeToRom cfg isWrite sw = false) (hbank : sw.lcBank1 = true)
    (hend : addr.toNat < 0xE000) : resolve cfg addr isWrite sw = ⟨.lcBank1, addr.toNat - 0x1000, sw.altzp⟩ := by
  simp [resolve_high h, hrom, hbank, hend]

theorem resolve_lcBank2 (h : 0xD000 ≤ addr.toNat) (hrom : routeToRom cfg isWrite sw = false) (hbank : sw.lcBank1 = false)
    (hend : addr.toNat < 0xE000) : resolve cfg addr isWrite sw = ⟨.lcBank2, addr.toNat, sw.altzp⟩ := by
  simp [resolve_high h, hrom, hbank, hend]

theorem resolve_lcOther (h : 0xE000 ≤ addr.toNat) (hrom : routeToRom cfg isWrite sw = false) :
    resolve cfg addr isWrite sw = ⟨.lcOther, addr.toNat, sw.altzp⟩ := by
  simp [resolve_high (show 0xD000 ≤ addr.toNat by omega), hrom, Nat.not_lt.2 h]

end

theorem routeToRom_iff (cfg : Config) (isWrite : Bool) (sw : Registry) :
    routeToRom cfg isWrite sw = true ↔
      cfg.lcPresent = false ∨ (isWrite = false ∧ sw.lcReadRam = false) ∨ (isWrite = true ∧ sw.lcWriteRam = false) := by
  simp [routeToRom, or_assoc]

theorem romSize_eq (cfg : Config) : cfg.romSize = if cfg.machine = .iiPlus then 12288 else 16384 := by
  unfold Config.romSize
  cases cfg.machine <;> rfl

/-- Settles O9: one equation of the resolver per clause. -/
theorem resolverKinds : Obligations.ResolverKinds := by
  intro cfg addr isWrite sw n r toRom romSize
  have hram : ¬ toRom → routeToRom cfg isWrite sw = false := fun h =>
    Bool.eq_false_iff.2 fun hr => h ((routeToRom_iff cfg isWrite sw).1 hr)
  have fields : ∀ {q : Resolution}, r = q → r.kind = q.kind ∧ r.offset = q.offset := by rintro q rfl; exact ⟨rfl, rfl⟩
  refine ⟨fun h => fields (resolve_main h), fun h h' => resolve_slots h h', fun h hrom => ?_,
    fun h hrom hbank hend => fields (resolve_lcBank1 h (hram hrom) hbank hend),
    fun h hrom hbank hend => fields (resolve_lcBank2 h (hram hrom) hbank hend),
    fun h hrom => fields (resolve_lcOther h (hram hrom))⟩
  exact (resolve_rom h ((routeToRom_iff cfg isWrite sw).2 hrom)).trans (by rw [romSize_eq])

/-! ### The cases of an access -/

/-- The routes an access can take, each with what its address says of it. -/
inductive Routed (cfg : Config) (addr : Word) (isWrite : Bool) (sw : Registry) : Resolution → Prop
  | main (h : addr.toNat < 0xC000) :
      Routed cfg addr isWrite sw ⟨.main, addr.toNat, isAuxMain cfg addr.toNat isWrite sw⟩
  | slots (h : addr.toNat < 0xD000) : Routed cfg addr isWrite sw ⟨.slots, addr.toNat - 0xC000, false⟩
  | rom (h : 0xD000 ≤ addr.toNat) :
      Routed cfg addr isWrite sw ⟨.rom, addr.toNat - (0x10000 - cfg.romSize), false⟩
  | lcBank1 (h : 0xD000 ≤ addr.toNat) (hend : addr.toNat < 0xE000) :
      Routed cfg addr isWrite sw ⟨.lcBank1, addr.toNat - 0x1000, sw.altzp⟩
  | lcBank2 (h : 0xD000 ≤ addr.toNat) (hend : addr.toNat < 0xE000) :
      Routed cfg addr isWrite sw ⟨.lcBank2, addr.toNat, sw.altzp⟩
  | lcOther (h : 0xE000 ≤ addr.toNat) : Routed cfg addr isWrite sw ⟨.lcOther, addr.toNat, sw.altzp⟩

theorem resolve_routed (cfg : Config) (addr : Word) (isWrite : Bool) (sw : Registry) :
    Routed cfg addr isWrite sw (resolve cfg addr isWrite sw) := by
  rcases Nat.lt_or_ge addr.toNat 0xC000 with hmain | hio
  · rw [resolve_main hmain]
    exact .main hmain
  rcases Nat.lt_or_ge addr.toNat 0xD000 with hslots | hlc
  · rw [resolve_slots hio hslots]
    exact .slots hslots
  rw [resolve_high hlc]
  split
  · exact .rom hlc
  split
  · next hbank =>
    simp only [Bool.and_eq_true, decide_eq_true_eq] at hbank
    exact .lcBank1 hlc hbank.2
  split
  · next hend => exact .lcBank2 hlc hend
  · next hend => exact .lcOther (Nat.le_of_not_lt hend)

/-! ### The auxiliary bank -/

theorem inDisplay_iff (n : Nat) (sw : Registry) :
    inDisplay n sw = true ↔ (0x0400 ≤ n ∧ n ≤ 0x07FF) ∨ (sw.hires = true ∧ 0x2000 ≤ n ∧ n ≤ 0x3FFF) := by
  simp [inDisplay, and_assoc]

theorem auxDisp_iff (n : Nat) (sw : Registry) :
    auxDisp n sw = true ↔ sw.store80 = true ∧ inDisplay n sw = true ∧ sw.page2 = true := by
  simp [auxDisp, and_assoc]

theorem auxGen_iff (n : Nat) (isWrite : Bool) (sw : Registry) :
    auxGen n isWrite sw = true ↔ 0x0200 ≤ n ∧ n ≤ 0xBFFF ∧ (if isWrite = true then sw.ramwrt else sw.ramrd) = true := by
  simp [auxGen, and_assoc]

/-- The combined terms of a MAIN access with `STORE80_MODE` OR (20_memory.md R64). -/
theorem isAuxMain_or {cfg : Config} (h : cfg.store80Mode = .or) (n : Nat) (isWrite : Bool) (sw : Registry) :
    isAuxMain cfg n isWrite sw = true ↔ auxZpMain cfg n sw = true ∨ auxDisp n sw = true ∨ auxGen n isWrite sw = true := by
  simp [isAuxMain, h]

/-- The combined terms of a MAIN access with `STORE80_MODE` OVERRIDE (20_memory.md R64). -/
theorem isAuxMain_override {cfg : Config} (h : cfg.store80Mode = .override) (n : Nat) (isWrite : Bool) (sw : Registry) :
    isAuxMain cfg n isWrite sw = true ↔ auxZpMain cfg n sw = true ∨
      (if sw.store80 = true ∧ inDisplay n sw = true then sw.page2 = true else auxGen n isWrite sw = true) := by
  simp only [isAuxMain, h, Bool.or_eq_true, Bool.and_eq_true]
  split <;> rfl

theorem auxZpMain_iff (cfg : Config) (n : Nat) (sw : Registry) :
    auxZpMain cfg n sw = true ↔ sw.altzp = true ∧
      match cfg.altzpMode with
      | .standard => n < 0x0200
      | .literal => 0x0200 ≤ n := by
  unfold auxZpMain
  cases cfg.altzpMode <;> simp

section
variable {cfg : Config} {addr : Word} {isWrite : Bool} {sw : Registry} {r : Resolution}
  (hr : Routed cfg addr isWrite sw r)
include hr

/-- ROM and SLOTS are never auxiliary (20_memory.md R64). -/
theorem Routed.isAux_rom_slots (h : r.kind = .rom ∨ r.kind = .slots) : r.isAux = false := by
  cases hr <;> simp_all

theorem Routed.isAux_main (h : r.kind = .main) :
    addr.toNat < 0xC000 ∧ r.isAux = isAuxMain cfg addr.toNat isWrite sw := by
  cases hr <;> simp_all

theorem Routed.isAux_card (h : r.kind = .lcBank1 ∨ r.kind = .lcBank2 ∨ r.kind = .lcOther) :
    0xD000 ≤ addr.toNat ∧ r.kind ≠ .main ∧ r.isAux = sw.altzp := by
  cases hr <;> simp_all
  omega

end

/-- Settles O10: on a MAIN access the terms are those of `isAuxMain`; on a language-card access only the ALTZP term
applies, and both modes of it say the same above 0xD000. -/
theorem auxiliaryBank : Obligations.AuxiliaryBank := by
  intro cfg addr isWrite sw n r isLc auxZp inDisp auxD auxG
  have hr : Routed cfg addr isWrite sw r := resolve_routed cfg addr isWrite sw
  refine ⟨hr.isAux_rom_slots, fun hram => ?_⟩
  rcases hram with hmain | hcard
  · obtain ⟨hn, haux⟩ := hr.isAux_main hmain
    have hnot : ¬ isLc := by simp only [isLc, hmain]; simp
    have hzp : auxZp ↔ auxZpMain cfg n sw = true := by
      rw [auxZpMain_iff]
      simp only [auxZp, hmain, hnot]
      cases cfg.altzpMode <;> simp
    have hdisp : inDisp ↔ inDisplay n sw = true := (inDisplay_iff n sw).symm
    have hg : auxG ↔ auxGen n isWrite sw = true := by
      rw [auxGen_iff]
      exact and_iff_right hmain
    cases hmode : cfg.store80Mode with
    | or =>
      have hd : auxD ↔ auxDisp n sw = true := by
        rw [auxDisp_iff, ← hdisp]
        exact and_iff_right hmain
      show r.isAux = true ↔ auxZp ∨ auxD ∨ auxG
      rw [haux, isAuxMain_or hmode, hzp, hd, hg]
    | override =>
      rw [haux, isAuxMain_override hmode, hzp, hg, hdisp]
      exact ⟨fun ⟨_, h⟩ => by rw [if_pos h], fun h => by rw [if_neg fun h' => h ⟨hmain, h'⟩]⟩
  · obtain ⟨hn, hnot, haux⟩ := hr.isAux_card hcard
    have hzp : auxZp ↔ r.isAux = true := by
      have hlow : 0x0200 ≤ n := by omega
      simp only [auxZp, haux, hcard, isLc, hlow]
      cases cfg.altzpMode <;> simp
    have hd : ¬ auxD := fun h => hnot h.1
    have hg : ¬ auxG := fun h => hnot h.1
    cases cfg.store80Mode with
    | or => simp [hzp, hd, hg]
    | override => simp [hzp, hg, hnot]

/-! ### Storage -/

/-- The RAM kind that holds an offset of a bank (20_memory.md R56, R59, R60): bank 1 stands below bank 2. -/
def kindOf (offset : Nat) : BankKind :=
  if offset < 0xC000 then .main else if offset < 0xD000 then .lcBank1 else if offset < 0xE000 then .lcBank2 else .lcOther

/-- The resolution a RAM offset belongs to: its bank, its place there and the kind of that place (20_memory.md R66). -/
def resolutionOf (k : Nat) : Resolution := ⟨kindOf (k % 0x10000), k % 0x10000, decide (0x10000 ≤ k)⟩

theorem resolutionOf_add {offset : Nat} (h : offset < 0x10000) (isAux : Bool) :
    resolutionOf ((if isAux then 0x10000 else 0) + offset) = ⟨kindOf offset, offset, isAux⟩ := by
  unfold resolutionOf
  cases isAux
  · simp [Nat.mod_eq_of_lt h, h]
  · simp [Nat.mod_eq_of_lt h]

/-- The offset of a RAM kind lies in a bank, where that kind is. -/
theorem Routed.kind_eq {cfg : Config} {addr : Word} {isWrite : Bool} {sw : Registry} {r : Resolution}
    (hr : Routed cfg addr isWrite sw r) (hslots : r.kind ≠ .slots) (hrom : r.kind ≠ .rom) :
    r.offset < 0x10000 ∧ r.kind = kindOf r.offset := by
  have haddr := addr.isLt
  unfold kindOf
  cases hr with
  | main hlt => exact ⟨haddr, by rw [if_pos hlt]⟩
  | slots => exact absurd rfl hslots
  | rom => exact absurd rfl hrom
  | lcBank1 hge hlt =>
    have hbank : 0xC000 ≤ addr.toNat - 0x1000 ∧ addr.toNat - 0x1000 < 0xD000 := by omega
    exact ⟨by simp only; omega, by rw [if_neg (Nat.not_lt.2 hbank.1), if_pos hbank.2]⟩
  | lcBank2 hge hlt =>
    have hmain : ¬ addr.toNat < 0xC000 := by omega
    exact ⟨haddr, by rw [if_neg hmain, if_neg (Nat.not_lt.2 hge), if_pos hlt]⟩
  | lcOther hge =>
    have hmain : ¬ addr.toNat < 0xC000 := by omega
    have hbank : ¬ addr.toNat < 0xD000 := by omega
    exact ⟨haddr, by rw [if_neg hmain, if_neg hbank, if_neg (Nat.not_lt.2 hge)]⟩

/-- A write of a RAM kind stores at its offset in its bank, if there is such a bank (20_memory.md R65, R66). -/
theorem ramTarget_eq_some {cfg : Config} {r : Resolution} {k : Nat} :
    ramTarget cfg r = some k ↔ r.kind ≠ .slots ∧ r.kind ≠ .rom ∧ (r.isAux = true → cfg.auxPresent = true) ∧
      k = (if r.isAux then 0x10000 else 0) + r.offset := by
  obtain ⟨kind, offset, isAux⟩ := r
  cases kind <;> cases isAux <;> cases h : cfg.auxPresent <;> simp [ramTarget, physOf, h, eq_comm]

/-- An access that stores at an offset has the resolution of that offset. -/
theorem resolve_eq_resolutionOf {cfg : Config} {addr : Word} {isWrite : Bool} {sw : Registry} {k : Nat}
    (h : ramTarget cfg (resolve cfg addr isWrite sw) = some k) : resolve cfg addr isWrite sw = resolutionOf k := by
  obtain ⟨hslots, hrom, -, rfl⟩ := ramTarget_eq_some.1 h
  obtain ⟨hoffset, hkind⟩ := (resolve_routed cfg addr isWrite sw).kind_eq hslots hrom
  rw [resolutionOf_add hoffset, ← hkind]

/-- Settles O11: the offset determines the resolution (`resolutionOf`). -/
theorem storageIsReachedOneWay : Obligations.StorageIsReachedOneWay := by
  intro cfg addr addr' w w' sw sw' k h
  exact ⟨fun h' => (resolve_eq_resolutionOf h).trans (resolve_eq_resolutionOf h').symm, fun hc => ramTarget_lt hc h⟩

end Sys2Proof.Machine
end

section
/-! SUPPORT. The side effects of a cycle, by the range of its address, and the language-card access as one update of four
switches (O16). -/

namespace Sys2Proof.Machine

/-! ### The decoded ranges -/

theorem inRange_iff (lo addr hi : Word) : inRange lo addr hi = true ↔ lo ≤ addr ∧ addr ≤ hi := by
  simp [inRange]

/-- The side effects by range (20_memory.md R78, R84, R85, R90). -/
theorem sideEffects_eq (addr : Word) (isRead : Bool) (s : State) :
    sideEffects addr isRead s =
      if 0xC080 ≤ addr ∧ addr ≤ 0xC08F then (if s.cfg.lcPresent then lcAccess addr isRead s else s)
      else if 0xC050 ≤ addr ∧ addr ≤ 0xC057 then displayAccess addr s
      else if 0xC000 ≤ addr ∧ addr ≤ 0xC00F then
        (if s.cfg.machine = .iie ∧ isRead = false then iieWrite addr s else s)
      else s := by
  simp only [sideEffects, inRange_iff]

theorem sideEffects_card {addr : Word} (hlo : 0xC080 ≤ addr) (hhi : addr ≤ 0xC08F) (isRead : Bool) (s : State) :
    sideEffects addr isRead s = if s.cfg.lcPresent then lcAccess addr isRead s else s := by
  rw [sideEffects_eq, if_pos ⟨hlo, hhi⟩]

theorem sideEffects_display {addr : Word} (hlo : 0xC050 ≤ addr) (hhi : addr ≤ 0xC057) (isRead : Bool) (s : State) :
    sideEffects addr isRead s = displayAccess addr s := by
  rw [sideEffects_eq, if_neg (by bv_omega), if_pos ⟨hlo, hhi⟩]

theorem sideEffects_memory {addr : Word} (hlo : 0xC000 ≤ addr) (hhi : addr ≤ 0xC00F) (isRead : Bool) (s : State) :
    sideEffects addr isRead s = if s.cfg.machine = .iie ∧ isRead = false then iieWrite addr s else s := by
  rw [sideEffects_eq, if_neg (by bv_omega), if_neg (by bv_omega), if_pos ⟨hlo, hhi⟩]

theorem sideEffects_undecoded {addr : Word}
    (h : addr < 0xC000 ∨ (0xC00F < addr ∧ addr < 0xC050) ∨ (0xC057 < addr ∧ addr < 0xC080) ∨ 0xC08F < addr)
    (isRead : Bool) (s : State) : sideEffects addr isRead s = s := by
  rw [sideEffects_eq, if_neg (by bv_omega), if_neg (by bv_omega), if_neg (by bv_omega)]

/-! ### The language card -/

/-- The entry `set_and_notify(f, b)` logs, if any (20_memory.md R74). -/
def switchEntry (f : Switch) (b : Bool) (s : State) : List SwitchEntry :=
  if s.sw.get f = b then [] else [⟨s.cycles, f, b⟩]

theorem setAndNotify_entry (f : Switch) (b : Bool) (s : State) :
    setAndNotify f b s = { s with sw := s.sw.set f b, swlog := s.swlog ++ switchEntry f b s } :=
  setAndNotify_eq f b s

theorem switchEntry_get (f : Switch) (s : State) : switchEntry f (s.sw.get f) s = [] := if_pos rfl

/-- LC_WRITE_RAM after a language-card access (20_memory.md R81). -/
def cardWriteRam (addr : Word) (isRead : Bool) (sw : Registry) : Bool :=
  if addr.getLsbD 0 = false then false else if isRead = true ∧ sw.lcPrewrite = true then true else sw.lcWriteRam

/-- LC_PREWRITE after a language-card access (20_memory.md R81). -/
def cardPrewrite (addr : Word) (isRead : Bool) : Bool := if addr.getLsbD 0 = false then false else isRead

/-- The write-enable part of an access sets two switches and logs those that change. -/
theorem lcWriteEnable_eq (addr : Word) (isRead : Bool) (s : State) :
    lcWriteEnable addr isRead s = { s with
      sw := { s.sw with lcWriteRam := cardWriteRam addr isRead s.sw, lcPrewrite := cardPrewrite addr isRead }
      swlog := s.swlog ++ switchEntry .lcWriteRam (cardWriteRam addr isRead s.sw) s ++
        switchEntry .lcPrewrite (cardPrewrite addr isRead) s } := by
  unfold lcWriteEnable cardWriteRam cardPrewrite
  have hkept : switchEntry .lcWriteRam s.sw.lcWriteRam s = [] := switchEntry_get .lcWriteRam s
  simp only [setAndNotify_entry]
  cases addr.getLsbD 0 with
  | false => rfl
  | true =>
    cases isRead with
    | false =>
      simp only [reduceCtorEq, false_and, if_false, hkept, List.append_nil]
      rfl
    | true =>
      cases s.sw.lcPrewrite with
      | false =>
        simp only [reduceCtorEq, and_false, if_false, if_true, hkept, List.append_nil]
        rfl
      | true => rfl

/-- Everything a language-card access does (20_memory.md R79 to R82): the four switches, and the log of those that
change. -/
theorem lcAccess_eq (addr : Word) (isRead : Bool) (s : State) :
    lcAccess addr isRead s = { s with
      sw := { s.sw with
        lcBank1 := addr.getLsbD 3
        lcReadRam := addr.getLsbD 0 == addr.getLsbD 1
        lcWriteRam := cardWriteRam addr isRead s.sw
        lcPrewrite := cardPrewrite addr isRead }
      swlog := s.swlog ++ switchEntry .lcBank1 (addr.getLsbD 3) s ++
        switchEntry .lcReadRam (addr.getLsbD 0 == addr.getLsbD 1) s ++
        switchEntry .lcWriteRam (cardWriteRam addr isRead s.sw) s ++ switchEntry .lcPrewrite (cardPrewrite addr isRead) s } := by
  unfold lcAccess
  rw [lcWriteEnable_eq]
  simp only [setAndNotify_entry]
  rfl

/-- Settles O16: an access of the card is `lcAccess`, whose whole effect is `lcAccess_eq`. -/
theorem languageCardAccess : Obligations.LanguageCardAccess := by
  intro addr isRead s hlo hhi even bank1 readRam writeRam prewrite entry
  rw [sideEffects_card hlo hhi]
  cases hcard : s.cfg.lcPresent with
  | false => rfl
  | true =>
    rw [if_pos rfl, if_neg nofun, lcAccess_eq]
    have hread : readRam = (addr.getLsbD 0 == addr.getLsbD 1) := by simp [readRam, Bool.beq_eq_decide_eq]
    rw [← hread]
    rfl

end Sys2Proof.Machine
end

section
/-! SUPPORT. Read and write cycles, said once against the terms of the statements: their value, their storage and their switch
effects (O7, O8); and, from them, what a read shows of an earlier write (O12, O13). -/

namespace Sys2Proof.Machine

/-! ### The side effects do not see memory, the bus log or the draws -/

/-- The same state with another RAM, bus log and queues of draws. -/
def State.withBus (s : State) (ram : Memory) (buslog : List BusEvent) (ioDraws : List Byte) (suppressDraws : List Bool) :
    State :=
  { s with ram := ram, buslog := buslog, ioDraws := ioDraws, suppressDraws := suppressDraws }

section
variable (s : State) (ram : Memory) (buslog : List BusEvent) (ioDraws : List Byte) (suppressDraws : List Bool)

@[simp] theorem withBus_sw : (s.withBus ram buslog ioDraws suppressDraws).sw = s.sw := rfl
@[simp] theorem withBus_cfg : (s.withBus ram buslog ioDraws suppressDraws).cfg = s.cfg := rfl

theorem setAndNotify_withBus (f : Switch) (b : Bool) :
    setAndNotify f b (s.withBus ram buslog ioDraws suppressDraws) =
      (setAndNotify f b s).withBus ram buslog ioDraws suppressDraws := by
  simp only [setAndNotify_eq]
  rfl

theorem lcAccess_withBus (addr : Word) (isRead : Bool) :
    lcAccess addr isRead (s.withBus ram buslog ioDraws suppressDraws) =
      (lcAccess addr isRead s).withBus ram buslog ioDraws suppressDraws := by
  rw [lcAccess_eq, lcAccess_eq]
  rfl

theorem sideEffects_withBus (addr : Word) (isRead : Bool) :
    sideEffects addr isRead (s.withBus ram buslog ioDraws suppressDraws) =
      (sideEffects addr isRead s).withBus ram buslog ioDraws suppressDraws := by
  unfold sideEffects displayAccess iieWrite
  simp only [setAndNotify_withBus, lcAccess_withBus, withBus_cfg]
  repeat' split
  all_goals rfl

end

/-- A read cycle moves the switches and their log as its side effects alone do. -/
theorem afterRead_switches (addr : Word) (s : State) :
    (afterRead addr s).sw = (sideEffects addr true s).sw ∧ (afterRead addr s).swlog = (sideEffects addr true s).swlog := by
  have h := sideEffects_withBus s s.ram (s.buslog ++ [peekEvent addr s])
    (if readDraws addr s then s.ioDraws.tail else s.ioDraws) s.suppressDraws addr true
  exact ⟨(congrArg State.sw h :), (congrArg State.swlog h :)⟩

/-- A write cycle moves the switches and their log as its side effects alone do. -/
theorem memWrite_switches (addr : Word) (v : Byte) (s : State) :
    (memWrite addr v s).sw = (sideEffects addr false s).sw ∧
      (memWrite addr v s).swlog = (sideEffects addr false s).swlog := by
  have h := sideEffects_withBus s (storedRam addr v s) (s.buslog ++ [pokeEvent addr v s]) s.ioDraws
    (if s.cfg.isHooked addr then s.suppressDraws.tail else s.suppressDraws) addr false
  exact ⟨(congrArg State.sw h :), (congrArg State.swlog h :)⟩

/-! ### One read cycle -/

theorem readValue_hooked {addr : Word} {s : State} (h : s.cfg.isHooked addr = true) : readValue addr s = ioByte addr s :=
  if_pos h

theorem readValue_unhooked {addr : Word} {s : State} (h : s.cfg.isHooked addr = false) :
    readValue addr s = storageByte s (resolve s.cfg addr false s.sw) (slotsRead s.cfg addr s.sw (ioByte addr s)) :=
  if_neg (Bool.eq_false_iff.1 h)

/-- Settles O7: the value by what answers, the record and the counter by the laws of a read cycle. -/
theorem readCycle : Obligations.ReadCycle := by
  intro addr s r hooked value t u
  have hvalue : readValue addr s = value := by
    cases hh : s.cfg.isHooked addr with
    | true => rw [readValue_hooked hh]; simp [value, hooked, hh]
    | false =>
      rw [readValue_unhooked hh]
      simp only [value, hooked, hh, storageByte, r]
      cases (resolve s.cfg addr false s.sw).kind <;> rfl
  obtain ⟨hsw, hswlog⟩ := afterRead_switches addr s
  have hlog : t.buslog = s.buslog ++ [peekEvent addr s] := afterRead_buslog addr s
  refine ⟨hvalue, by rw [hlog, ← hvalue]; rfl, hsw, hswlog, afterRead_cycles addr s, afterRead_ram addr s,
    afterRead_rom addr s, afterRead_a addr s, afterRead_x addr s, afterRead_y addr s, afterRead_sp addr s,
    afterRead_pc addr s, afterRead_p addr s⟩

/-! ### One write cycle -/

theorem writeSuppressed_unhooked {addr : Word} {v : Byte} {s : State} (h : s.cfg.isHooked addr = false) :
    writeSuppressed addr v s = false := by
  simp [writeSuppressed, h]

/-- Settles O8: the store by `storedRam_read` and `ramTarget_eq_some`, the rest by the laws of a write cycle. -/
theorem writeCycle : Obligations.WriteCycle := by
  intro addr v s hwf r suppressed stored t u
  have hstored : ∀ k, stored = some k ↔ suppressed = false ∧ ramTarget s.cfg r = some k := by
    intro k
    have haux : s.cfg.auxPresent = true ↔ s.cfg.ramSize > 65536 := decide_eq_true_iff
    rw [ramTarget_eq_some, haux]
    simp only [stored]
    cases suppressed with
    | true => cases r.kind <;> simp
    | false => cases r.kind <;> cases r.isAux <;> simp [eq_comm]
  obtain ⟨hsw, hswlog⟩ := memWrite_switches addr v s
  refine ⟨fun h => (Bool.and_eq_true_iff.1 h).1, memWrite_buslog addr v s, fun k => ?_, ?_, hsw, hswlog,
    memWrite_cycles addr v s, memWrite_rom addr v s, memWrite_a addr v s, memWrite_x addr v s, memWrite_y addr v s,
    memWrite_sp addr v s, memWrite_pc addr v s, memWrite_p addr v s⟩
  · rw [memWrite_ram, storedRam_read addr v s k hwf]
    exact if_congr (hstored k).symm rfl rfl
  · rw [memWrite_ram]
    exact storedRam_wf addr v s hwf

/-! ### Read after write -/

/-- An unhooked read that resolves to a RAM offset gives the byte there. -/
theorem readValue_ram {addr : Word} {s : State} {k : Nat} (h : s.cfg.isHooked addr = false)
    (hk : ramSource s.cfg (resolve s.cfg addr false s.sw) = some k) : readValue addr s = s.ram.read k := by
  rw [readValue_unhooked h]
  unfold ramSource at hk
  unfold storageByte
  split at hk
  all_goals simp_all

/-- After a write that is not suppressed, the byte it resolves to reads as written and every other as before. -/
theorem memWrite_read {addr : Word} {v : Byte} {s : State} {k : Nat} (hwf : s.ram.wf = true)
    (hs : writeSuppressed addr v s = false) (hk : storeTarget addr s = some k) (j : Nat) :
    (memWrite addr v s).ram.read j = if j = k then v else s.ram.read j := by
  unfold storeTarget at hk
  rw [memWrite_ram, storedRam_read addr v s j hwf, hs, hk]
  simp [eq_comm]

/-- Settles O13: of the cycles after the write none changes the byte (`Cycles.ram_changes`). -/
theorem readSeesTheLastWrite : Obligations.ReadSeesTheLastWrite := by
  intro s u es addr addr' v k hwf hk hs hcycles hother hhook hsource
  have hcfg : u.cfg = s.cfg := hcycles.cfg_eq.trans (memWrite_cfg addr v s)
  have hkept : u.ram.read k = (memWrite addr v s).ram.read k := by
    by_contra hne
    obtain ⟨e, he, hpoke, -, htarget⟩ := hcycles.ram_changes k hne
    rw [memWrite_cfg] at htarget
    exact hother e he hpoke htarget
  calc readValue addr' u = u.ram.read k := readValue_ram (by rwa [hcfg]) (by rwa [hcfg])
    _ = (memWrite addr v s).ram.read k := hkept
    _ = v := by rw [memWrite_read hwf hs hk, if_pos rfl]

/-- Settles O12: each write changes its own offset only (`memWrite_read`), and neither moves a switch. -/
theorem bankIsolation : Obligations.BankIsolation := by
  intro s addr sw1 sw2 v1 v2 k1 k2 hwf hhook _ htarget1 hsource1 htarget2 hsource2 hne t
  have hfirst : ∀ j, (memWrite addr v1 { s with sw := sw1 }).ram.read j = if j = k1 then v1 else s.ram.read j :=
    memWrite_read (s := { s with sw := sw1 }) hwf (writeSuppressed_unhooked hhook) htarget1
  have hcfg : t.cfg = s.cfg := by simp [t]
  have hsecond : ∀ j, t.ram.read j = if j = k2 then v2 else if j = k1 then v1 else s.ram.read j := by
    intro j
    rw [← hfirst]
    refine memWrite_read ?_ (writeSuppressed_unhooked ?_) ?_ j
    · simpa using storedRam_wf addr v1 { s with sw := sw1 } hwf
    · simpa using hhook
    · simpa [storeTarget] using htarget2
  constructor
  · calc readValue addr { t with sw := sw1 } = t.ram.read k1 :=
        readValue_ram (s := { t with sw := sw1 }) (by rwa [hcfg]) (by rwa [hcfg])
      _ = v1 := by rw [hsecond, if_neg hne, if_pos rfl]
  · calc readValue addr { t with sw := sw2 } = t.ram.read k2 :=
        readValue_ram (s := { t with sw := sw2 }) (by rwa [hcfg]) (by rwa [hcfg])
      _ = v2 := by rw [hsecond, if_pos rfl]

end Sys2Proof.Machine
end

section
/-! SUPPORT. The switch effects of the I/O page and what a read of it gives: the two odd reads that enable language-card writes
(O17), the memory and display switches (O18), the addresses with no side effect (O19) and the status bytes (O20). -/

namespace Sys2Proof.Machine

/-! ### Which switches an access moves -/

/-- What cycles at such addresses keep, a run of them keeps. -/
theorem Cycles.keep_at {P : State → Prop} {A : Word → Prop} (hr : ∀ addr s, A addr → P s → P (afterRead addr s))
    (hw : ∀ addr v s, A addr → P s → P (memWrite addr v s)) {es : List BusEvent} :
    ∀ {s u : State}, Cycles s es u → (∀ e ∈ es, A e.addr) → P s → P u := by
  induction es with
  | nil => intro s u h _ hp; cases h; exact hp
  | cons e es ih =>
    intro s u h ha hp
    have he := ha e List.mem_cons_self
    have hrest : ∀ e' ∈ es, A e'.addr := fun e' he' => ha e' (List.mem_cons_of_mem _ he')
    rcases h.cons_cases with ⟨_, h'⟩ | ⟨_, h'⟩
    · exact ih h' hrest (hr _ _ he hp)
    · exact ih h' hrest (hw _ _ _ he hp)

theorem setAndNotify_prewrite {f : Switch} (h : f ≠ .lcPrewrite) (b : Bool) (s : State) :
    (setAndNotify f b s).sw.lcPrewrite = s.sw.lcPrewrite := by
  rw [setAndNotify_sw]
  exact Registry.get_set_other s.sw b h.symm

/-- Only an access of the card moves LC_PREWRITE (20_memory.md R81). -/
theorem sideEffects_prewrite {addr : Word} (h : addr < 0xC080 ∨ 0xC08F < addr) (isRead : Bool) (s : State) :
    (sideEffects addr isRead s).sw.lcPrewrite = s.sw.lcPrewrite := by
  have hdisplay : ∀ k, displaySwitch k ≠ .lcPrewrite := fun k => by unfold displaySwitch; split <;> decide
  have hiie : ∀ k, iieSwitch k ≠ .lcPrewrite := fun k => by unfold iieSwitch; split <;> decide
  rw [sideEffects_eq, if_neg (by bv_omega)]
  split
  · exact setAndNotify_prewrite (hdisplay _) _ _
  split
  · split
    · exact setAndNotify_prewrite (hiie _) _ _
    · rfl
  · rfl

/-- A run away from the card leaves LC_PREWRITE alone. -/
theorem Cycles.prewrite {s u : State} {es : List BusEvent} (h : Cycles s es u)
    (haway : ∀ e ∈ es, e.addr < 0xC080 ∨ 0xC08F < e.addr) : u.sw.lcPrewrite = s.sw.lcPrewrite := by
  refine h.keep_at (P := fun t => t.sw.lcPrewrite = s.sw.lcPrewrite)
    (A := fun addr => addr < 0xC080 ∨ 0xC08F < addr) ?_ ?_ haway rfl
  · intro addr t haddr ht
    rw [(afterRead_switches addr t).1, sideEffects_prewrite haddr, ht]
  · intro addr v t haddr ht
    rw [(memWrite_switches addr v t).1, sideEffects_prewrite haddr, ht]

theorem sideEffects_card_write {addr : Word} (hlo : 0xC080 ≤ addr) (hhi : addr ≤ 0xC08F) (isRead : Bool) {s : State}
    (hcard : s.cfg.lcPresent = true) :
    (sideEffects addr isRead s).sw.lcWriteRam = cardWriteRam addr isRead s.sw ∧
      (sideEffects addr isRead s).sw.lcPrewrite = cardPrewrite addr isRead := by
  rw [sideEffects_card hlo hhi, if_pos hcard, lcAccess_eq]
  exact ⟨rfl, rfl⟩

theorem afterRead_card {addr : Word} {s : State} (hcard : s.cfg.lcPresent = true) (hlo : 0xC080 ≤ addr)
    (hhi : addr ≤ 0xC08F) :
    (afterRead addr s).sw.lcWriteRam = cardWriteRam addr true s.sw ∧
      (afterRead addr s).sw.lcPrewrite = cardPrewrite addr true := by
  rw [(afterRead_switches addr s).1]
  exact sideEffects_card_write hlo hhi true hcard

/-- An odd read of the card enables writes exactly when prewrite is armed or they are enabled already. -/
theorem afterRead_card_odd {addr : Word} {s : State} (hcard : s.cfg.lcPresent = true) (hlo : 0xC080 ≤ addr)
    (hhi : addr ≤ 0xC08F) (hodd : addr.getLsbD 0 = true) :
    (afterRead addr s).sw.lcWriteRam = (s.sw.lcPrewrite || s.sw.lcWriteRam) ∧
      (afterRead addr s).sw.lcPrewrite = true := by
  obtain ⟨hwrite, hprewrite⟩ := afterRead_card hcard hlo hhi
  rw [hwrite, hprewrite]
  unfold cardWriteRam cardPrewrite
  rw [hodd]
  cases s.sw.lcPrewrite <;> simp

/-- Settles O17: an odd read arms LC_PREWRITE, only an access of the card moves it, and an even access or a write of the card
clears it. -/
theorem twoOddReadsEnableWrites : Obligations.TwoOddReadsEnableWrites := by
  refine ⟨?_, ?_, ?_⟩
  · intro s u es a b hcard hlo hhi hodd hlo' hhi' hodd' hcycles haway
    have harmed := (afterRead_card_odd hcard hlo hhi hodd).2
    have hkept : u.sw.lcPrewrite = true := (hcycles.prewrite haway).trans harmed
    have hcard' : u.cfg.lcPresent = true := by rwa [hcycles.cfg_eq, afterRead_cfg]
    rw [(afterRead_card_odd hcard' hlo' hhi' hodd').1, hkept, Bool.true_or]
  · intro s a b hcard hlo hhi heven hlo' hhi' hodd'
    obtain ⟨hwrite, hprewrite⟩ := afterRead_card hcard hlo hhi
    have hcard' : (afterRead a s).cfg.lcPresent = true := by rwa [afterRead_cfg]
    rw [(afterRead_card_odd hcard' hlo' hhi' hodd').1, hwrite, hprewrite]
    simp only [cardWriteRam, cardPrewrite, heven, if_true, Bool.or_false]
  · intro s a b v hcard hlo hhi hlo' hhi' hodd'
    have hdisarmed : (memWrite a v s).sw.lcPrewrite = false := by
      rw [(memWrite_switches a v s).1, (sideEffects_card_write hlo hhi false hcard).2]
      exact ite_self false
    have hcard' : (memWrite a v s).cfg.lcPresent = true := by rwa [memWrite_cfg]
    rw [(afterRead_card_odd hcard' hlo' hhi' hodd').1, hdisarmed, Bool.false_or]

/-- Settles O19: the ranges with side effects are three; on a II+ those below 0xC050 have none. -/
theorem noOtherSideEffects : Obligations.NoOtherSideEffects := by
  intro addr isRead s
  refine ⟨fun h => sideEffects_undecoded h isRead s, fun hplus haddr => ?_, fun hplus f hf =>
    sideEffects_iiPlus addr isRead s hplus hf⟩
  by_cases hmemory : 0xC000 ≤ addr ∧ addr ≤ 0xC00F
  · have hiie : ¬ (s.cfg.machine = .iie ∧ isRead = false) := by simp [hplus]
    rw [sideEffects_memory hmemory.1 hmemory.2, if_neg hiie]
  · exact sideEffects_undecoded (by bv_omega) isRead s

/-! ### What a read of the I/O page gives -/

/-- No status stands outside 0xC011-0xC01F (20_memory.md R88). -/
theorem statusBit_eq_none {addr : Word} (h : addr < 0xC011 ∨ 0xC01F < addr) (sw : Registry) : statusBit addr sw = none := by
  have h' : addr.toNat < 0xC011 ∨ 0xC01F < addr.toNat := h
  unfold statusBit
  split <;> simp <;> omega

theorem slotsRead_of_none {addr : Word} {sw : Registry} (h : statusBit addr sw = none) (cfg : Config) (io : Byte) :
    slotsRead cfg addr sw io = io := by
  unfold slotsRead
  rw [h]
  cases cfg.machine <;> rfl

theorem slotsRead_iiPlus {cfg : Config} (h : cfg.machine = .iiPlus) (addr : Word) (sw : Registry) (io : Byte) :
    slotsRead cfg addr sw io = io := by
  unfold slotsRead
  rw [h]

/-- The status in bit 7, the environment below it. -/
theorem slotsRead_of_some {cfg : Config} {addr : Word} {sw : Registry} {b : Bool} (hm : cfg.machine = .iie)
    (h : statusBit addr sw = some b) (io : Byte) : slotsRead cfg addr sw io = BitVec.ofBool b ++ io.extractLsb' 0 7 := by
  unfold slotsRead
  rw [hm, h]

/-- Bit 7 of an IIe device byte is the status where there is one, and the environment supplies every other bit. -/
theorem slotsRead_bits {cfg : Config} (hm : cfg.machine = .iie) (addr : Word) (sw : Registry) (io : Byte) :
    (slotsRead cfg addr sw io).getLsbD 7 = (statusBit addr sw).getD (io.getLsbD 7) ∧
      ∀ k < 7, (slotsRead cfg addr sw io).getLsbD k = io.getLsbD k := by
  cases h : statusBit addr sw with
  | none => rw [slotsRead_of_none h]; exact ⟨rfl, fun _ _ => rfl⟩
  | some b =>
    rw [slotsRead_of_some hm h]
    refine ⟨?_, fun k hk => ?_⟩
    · rw [BitVec.getLsbD_append]; simp
    · rw [BitVec.getLsbD_append]; simp [hk]

/-- An unhooked read of the I/O page gives the device byte. -/
theorem readValue_slots {addr : Word} {s : State} (h : s.cfg.isHooked addr = false) (hlo : 0xC000 ≤ addr)
    (hhi : addr < 0xD000) : readValue addr s = slotsRead s.cfg addr s.sw (ioByte addr s) := by
  rw [readValue_unhooked h, resolve_slots hlo hhi]
  rfl

/-- Where no status stands a read of the I/O page gives the environment byte, hooked or not. -/
theorem readValue_environment {addr : Word} {s : State} (hlo : 0xC000 ≤ addr) (hhi : addr < 0xD000)
    (h : addr < 0xC011 ∨ 0xC01F < addr) : readValue addr s = ioByte addr s := by
  cases hhook : s.cfg.isHooked addr with
  | true => exact readValue_hooked hhook
  | false => rw [readValue_slots hhook hlo hhi, slotsRead_of_none (statusBit_eq_none h s.sw)]

/-! ### The memory and the display switches -/

/-- 0xC000 + 2k + b lies in the range of the memory switches, and its bits give `k` and `b` back. -/
theorem memoryAddr_bits : ∀ (k : Fin 8) (b : Bool),
    let addr : Word := 0xC000 + 2 * BitVec.ofNat 16 k + (if b then 1 else 0)
    0xC000 ≤ addr ∧ addr ≤ 0xC00F ∧ addr.toNat / 2 % 8 = k ∧ addr.getLsbD 0 = b := by decide

/-- 0xC050 + 2k + b lies in the range of the display switches, and its bits give `k` and `b` back. -/
theorem displayAddr_bits : ∀ (k : Fin 4) (b : Bool),
    let addr : Word := 0xC050 + 2 * BitVec.ofNat 16 k + (if b then 1 else 0)
    0xC050 ≤ addr ∧ addr ≤ 0xC057 ∧ addr.toNat / 2 % 4 = k ∧ addr.getLsbD 0 = b := by decide

/-- `iieSwitch` is the list F (20_memory.md R84). -/
theorem iieSwitch_eq : ∀ k : Fin 8, iieSwitch k =
    [.store80, .ramrd, .ramwrt, .intcxrom, .altzp, .slotc3rom, .col80, .altcharset][k] := by decide

/-- `displaySwitch` is the list G (20_memory.md R85). -/
theorem displaySwitch_eq : ∀ k : Fin 4, displaySwitch k = [.text, .mixed, .page2, .hires][k] := by decide

/-- Settles O18: the range decides the access, the bits of the address its switch and value. -/
theorem memoryAndDisplaySwitches : Obligations.MemoryAndDisplaySwitches := by
  intro s isRead b
  refine ⟨fun k => ?_, fun k => ?_⟩
  · intro addr
    obtain ⟨hlo, hhi, hk, hb⟩ : 0xC000 ≤ addr ∧ addr ≤ 0xC00F ∧ addr.toNat / 2 % 8 = k ∧ addr.getLsbD 0 = b :=
      memoryAddr_bits k b
    refine ⟨readValue_environment hlo (by bv_omega) (.inl (by bv_omega)), ?_⟩
    rw [sideEffects_memory hlo hhi, iieWrite, hk, hb, iieSwitch_eq]
  · intro addr
    obtain ⟨hlo, hhi, hk, hb⟩ : 0xC050 ≤ addr ∧ addr ≤ 0xC057 ∧ addr.toNat / 2 % 4 = k ∧ addr.getLsbD 0 = b :=
      displayAddr_bits k b
    refine ⟨readValue_environment (by bv_omega) (by bv_omega) (.inr (by bv_omega)), ?_⟩
    rw [sideEffects_display hlo hhi, displayAccess, hk, hb, displaySwitch_eq]

/-! ### The status bytes -/

/-- The status list of 20_memory.md R88, from 0xC011 on; `vbl` is the environment's bit at 0xC019. -/
def statusList (sw : Registry) (vbl : Bool) : List Bool := [!sw.lcBank1, sw.lcReadRam, sw.ramrd, sw.ramwrt, sw.intcxrom,
  sw.altzp, sw.slotc3rom, sw.store80, vbl, sw.text, sw.mixed, sw.page2, sw.hires, sw.altcharset, sw.col80]

theorem statusList_getElem? {addr : Word} (hlo : 0xC011 ≤ addr) (hhi : addr ≤ 0xC01F) (sw : Registry) (vbl : Bool) :
    (statusList sw vbl)[addr.toNat - 0xC011]? = some ((statusBit addr sw).getD vbl) := by
  have hlo' : 0xC011 ≤ addr.toNat := hlo
  have hhi' : addr.toNat ≤ 0xC01F := hhi
  unfold statusBit
  interval_cases addr.toNat <;> rfl

theorem storedRam_slots {addr : Word} (hlo : 0xC000 ≤ addr) (hhi : addr < 0xD000) (v : Byte) (s : State) :
    storedRam addr v s = s.ram := by
  unfold storedRam
  rw [resolve_slots hlo hhi]
  rfl

/-- Settles O20: bit 7 by `statusList`, the other bits from the environment, and no side effect or storage in the range. -/
theorem statusReads : Obligations.StatusReads := by
  intro addr s hhook hlo hhi v io status
  have hvalue : v = slotsRead s.cfg addr s.sw io := readValue_slots hhook hlo hhi
  refine ⟨fun hm h h' => ?_, fun h h' => ?_, fun h => ?_⟩
  · obtain ⟨hbit7, hrest⟩ := slotsRead_bits hm addr s.sw io
    rw [hvalue]
    exact ⟨by rw [hbit7]; exact statusList_getElem? h h' s.sw _, hrest⟩
  · have hnone : ∀ isRead, sideEffects addr isRead s = s := fun isRead =>
      sideEffects_undecoded (.inr (.inl (by bv_omega))) isRead s
    refine ⟨?_, fun w => ⟨?_, ?_⟩⟩
    · exact (afterRead_switches addr s).1.trans (by rw [hnone])
    · rw [(memWrite_switches addr w s).1, hnone]
    · rw [memWrite_ram, storedRam_slots hlo hhi]
  · rcases h with hplus | hrange
    · exact hvalue.trans (slotsRead_iiPlus hplus addr s.sw io)
    · exact readValue_environment hlo hhi hrange

end Sys2Proof.Machine
end

section
/-! SUPPORT. Encoding and decoding are inverse, as every instruction is a row of the opcode map with an operand (O1, O2); the
opcodes of each operation (O4, O5); and words written out (O6). -/

namespace Sys2Proof

/-! ### Every instruction is in the map -/

/-- Every instruction is what some row of the map builds of some operand. -/
theorem exists_eq_fill (i : Instr) : ∃ op w, i = (opcodeRow op).form.fill w := by
  have h := Laws.EncodedForm.all i
  unfold Laws.EncodedForm.Statement at h
  refine ⟨i.opcode, ?_⟩
  split at h
  · next j hf =>
    exact ⟨0, by rw [hf]; exact h.2.symm⟩
  · next f hf =>
    obtain ⟨b, _, hb⟩ := h
    exact ⟨wordOf 0 b, by rw [hf, Form.fill, loByte_wordOf, hb]⟩
  · next f hf =>
    obtain ⟨w, _, hw⟩ := h
    exact ⟨w, by rw [hf]; exact hw.symm⟩

/-- Settles O1: an instruction is a row with an operand, whose bytes `decode_fill` reads back. -/
theorem decodeInvertsEncode : Obligations.DecodeInvertsEncode := by
  intro i rest _
  obtain ⟨op, w, rfl⟩ := exists_eq_fill i
  rw [encode_fill]
  exact decode_fill op w rest

/-! ### Encoding what was decoded -/

theorem operandBytes_of_row : ∀ r ∈ opcodeMap, r.form.operandBytes = r.mode.operandBytes := by
  simp only [opcodeMap, List.forall_mem_append]
  decide

/-- The format of a row is that of its mode (30_encoding.md R120, R122). -/
theorem form_operandBytes (op : Byte) : (opcodeRow op).form.operandBytes = (opcodeRow op).mode.operandBytes :=
  operandBytes_of_row _ (List.getElem_mem _)

/-- What decodes is an opcode, the bytes of the operand its row takes, and the rest. -/
theorem decode_eq_ok {bs rest : List Byte} {i : Instr} (h : decode bs = .ok (i, rest)) :
    ∃ op w, i = (opcodeRow op).form.fill w ∧
      bs = op :: (wordBytes w).take (opcodeRow op).form.operandBytes ++ rest := by
  match bs with
  | [] => cases h
  | op :: bs =>
    refine ⟨op, ?_⟩
    cases hf : (opcodeRow op).form with
    | implied j =>
      obtain ⟨rfl, rfl⟩ : j = i ∧ bs = rest := by simpa [decode, hf] using h
      exact ⟨0, rfl, rfl⟩
    | byte f =>
      match bs with
      | [] => simp [decode, hf] at h
      | b :: bs =>
        obtain ⟨rfl, rfl⟩ : f b = i ∧ bs = rest := by simpa [decode, hf] using h
        exact ⟨wordOf 0 b, by simp [Form.fill, Form.operandBytes, wordBytes]⟩
    | word f =>
      match bs with
      | [] | [_] => simp [decode, hf] at h
      | b1 :: b2 :: bs =>
        obtain ⟨rfl, rfl⟩ : f (wordOf b2 b1) = i ∧ bs = rest := by simpa [decode, hf] using h
        exact ⟨wordOf b2 b1, by simp [Form.fill, Form.operandBytes, wordBytes]⟩

/-- Settles O2: what decodes is an opcode with its operand, which `encode_fill` writes again. -/
theorem encodeInvertsDecode : Obligations.EncodeInvertsDecode := by
  intro bs rest i h
  obtain ⟨op, w, rfl, rfl⟩ := decode_eq_ok h
  rw [encode_fill, length_fill, row_fill, form_operandBytes]
  exact ⟨rfl, rfl⟩

/-! ### The opcodes of an operation -/

/-- The opcodes the map gives an operation, in its order (30_encoding.md R124). -/
def opcodesOf (op : Operation) : List Byte :=
  (opcodeMap.zipIdx.filter (·.1.op = op)).map fun r => BitVec.ofNat 8 r.2

theorem getElem?_opcodeMap (b : Byte) : opcodeMap[b.toNat]? = some (opcodeRow b) :=
  List.getElem?_eq_getElem _

theorem opcodeRow_ofNat {n : Nat} {r : OpcodeRow} (h : opcodeMap[n]? = some r) : opcodeRow (BitVec.ofNat 8 n) = r := by
  obtain ⟨hn, rfl⟩ := List.getElem?_eq_some_iff.1 h
  have hlt : n < 2 ^ 8 := by rwa [opcodeMap_length] at hn
  simp only [opcodeRow, BitVec.toNat_ofNat, Nat.mod_eq_of_lt hlt]

theorem mem_opcodesOf {op : Operation} {b : Byte} : b ∈ opcodesOf op ↔ (opcodeRow b).op = op := by
  simp only [opcodesOf, List.mem_map, List.mem_filter, decide_eq_true_eq]
  constructor
  · rintro ⟨⟨r, n⟩, ⟨hr, hop⟩, rfl⟩
    rwa [opcodeRow_ofNat (List.mk_mem_zipIdx_iff_getElem?.1 hr)]
  · intro hop
    exact ⟨(opcodeRow b, b.toNat), ⟨List.mk_mem_zipIdx_iff_getElem?.2 (getElem?_opcodeMap b), hop⟩, by simp⟩

/-- Settles O4: the listed bytes are `opcodesOf .ill` written out. -/
theorem undocumentedBytesAreTheListed : Obligations.UndocumentedBytesAreTheListed :=
  fun _ => mem_opcodesOf.symm

/-- The opcodes of a documented operation have the modes of its Encoding line (41 to 45), each of them once. -/
theorem modes_opcodesOf_perm {op : Operation} (h : op ≠ .ill) :
    ((opcodesOf op).map fun b => (opcodeRow b).mode).Perm op.modes := by
  cases op with
  | ill => contradiction
  | _ => decide

theorem modes_nodup (op : Operation) : op.modes.Nodup := by
  cases op <;> decide

/-- No two opcodes stand for one documented operation in one mode. -/
theorem opcode_unique {b b' : Byte} (h : (opcodeRow b).op ≠ .ill) (hop : (opcodeRow b').op = (opcodeRow b).op)
    (hmode : (opcodeRow b').mode = (opcodeRow b).mode) : b' = b :=
  List.inj_on_of_nodup_map ((modes_opcodesOf_perm h).nodup_iff.2 (modes_nodup _)) (mem_opcodesOf.2 hop)
    (mem_opcodesOf.2 rfl) hmode

/-- The assembler table finds an opcode of the operation in the mode wherever there is one. -/
theorem exists_opcodeOf_row (b : Byte) : ∃ b', opcodeOf (opcodeRow b).op (opcodeRow b).mode = some b' ∧
    (opcodeRow b').op = (opcodeRow b).op ∧ (opcodeRow b').mode = (opcodeRow b).mode := by
  unfold opcodeOf
  cases hidx : opcodeMap.findIdx? fun r => r.op == (opcodeRow b).op && r.mode == (opcodeRow b).mode with
  | none =>
    have := List.findIdx?_eq_none_iff.1 hidx (opcodeRow b) (List.getElem_mem _)
    simp at this
  | some n =>
    obtain ⟨hn, hrow, _⟩ := List.findIdx?_eq_some_iff_getElem.1 hidx
    refine ⟨_, rfl, ?_⟩
    rw [opcodeRow_ofNat (List.getElem?_eq_getElem hn)]
    simpa using hrow

/-- Settles O5: the map's modes of an operation are those of its Encoding line, each once, so the opcode the assembler
table finds is the only one. -/
theorem modesOfEachOperation : Obligations.ModesOfEachOperation := by
  intro op mode hop
  constructor
  · rw [← (modes_opcodesOf_perm hop).mem_iff]
    simp only [List.mem_map, mem_opcodesOf]
  · rintro b rfl rfl
    obtain ⟨b', hfound, hop', hmode'⟩ := exists_opcodeOf_row b
    rw [hfound, opcode_unique hop hop' hmode']

/-- Settles O6: each word runs through the decoder. -/
theorem knownWordsDecode : Obligations.KnownWordsDecode :=
  ⟨rfl, rfl, rfl, rfl, rfl, rfl, rfl, rfl, rfl, rfl, rfl, rfl, rfl, rfl, rfl⟩

end Sys2Proof
end

section
/-! SUPPORT. Control flow by address: a branch takes its condition (O36) and a jump sets PC (O37). -/

namespace Sys2Proof.Machine

/-- An instruction that does what the relative mode does is the branch of that condition (40_addressing.md R151). -/
theorem branchesIf_of_exec {code : Byte} {i : Instr} {cond : Bool} {d : Byte} {s : State} (hcode : i.opcode = code)
    (hexec : exec i s = .next (branchIf cond d s)) : BranchesIf code i cond d s := by
  refine ⟨hcode, ?_⟩
  rw [hexec, branchIf]
  cases cond with
  | false => rfl
  | true =>
    by_cases hpage : hiByte (s.pc + sext16 d) = hiByte s.pc
    · simp only [hpage, if_true, ne_eq, not_true, if_false]
      exact ⟨_, _, peekEvent_isRead _ _, Cycles.read_one _ _, rfl⟩
    · simp only [hpage, if_true, ne_eq, not_false_iff, if_false]
      exact ⟨_, _, _, peekEvent_isRead _ _, peekEvent_isRead _ _, Cycles.read _ (Cycles.read_one _ _), rfl⟩

/-- Settles O36: each of the eight is `branchIf` of its condition. -/
theorem branchesTakeTheirCondition : Obligations.BranchesTakeTheirCondition := fun _ _ =>
  ⟨branchesIf_of_exec rfl rfl, branchesIf_of_exec rfl rfl, branchesIf_of_exec rfl rfl, branchesIf_of_exec rfl rfl,
    branchesIf_of_exec rfl rfl, branchesIf_of_exec rfl rfl, branchesIf_of_exec rfl rfl, branchesIf_of_exec rfl rfl⟩

/-- Settles O37: JMP abs is one register update, and JMP (abs) its two pointer reads and that update. -/
theorem jumpsSetThePc : Obligations.JumpsSetThePc := fun _ _ =>
  ⟨⟨rfl, rfl⟩, rfl, _, _, _, peekEvent_isRead _ _, peekEvent_isRead _ _, Cycles.read _ (Cycles.read_one _ _), rfl⟩

end Sys2Proof.Machine
end

section
/-! SUPPORT. Stores and read-modify-write operands: a cycle does not move what its own address stores to, so all the writes of
an operand store at the one offset the state before them resolves (O46). -/

namespace Sys2Proof.Machine

theorem RamKeptBut.mono {ts ts' : List (Option Nat)} {s t : State} (hsub : ts ⊆ ts') (h : RamKeptBut ts s t) :
    RamKeptBut ts' s t := fun k hk => h k fun hm => hk (hsub hm)

theorem Cycles.registersKept {s u : State} {es : List BusEvent} (h : Cycles s es u) : RegistersKept s u :=
  ⟨h.a_eq, h.x_eq, h.y_eq, h.sp_eq, h.pc_eq, h.p_eq⟩

theorem Cycles.ramKeptBut_of_reads {s u : State} {es : List BusEvent} (h : Cycles s es u)
    (hreads : ∀ e ∈ es, e.type = .peek) : RamKeptBut [] s u := .of_ram_eq (h.ram_of_reads hreads).1

/-! ### A cycle and the target of its address -/

/-- Where only accesses of the I/O page move switches, what an address stores to stays: in that page it is nothing
(20_memory.md R57). -/
theorem storeTarget_of_plain {addr : Word} {s t : State} (hcfg : t.cfg = s.cfg)
    (hsw : addr < 0xC000 ∨ 0xD000 ≤ addr → t.sw = s.sw) : storeTarget addr t = storeTarget addr s := by
  by_cases hplain : addr < 0xC000 ∨ 0xD000 ≤ addr
  · exact storeTarget_congr addr hcfg (hsw hplain)
  · have hlo : 0xC000 ≤ addr.toNat := Nat.not_lt.1 fun h => hplain (.inl h)
    have hhi : addr.toNat < 0xD000 := Nat.not_le.1 fun h => hplain (.inr h)
    simp only [storeTarget, resolve_slots hlo hhi, ramTarget]

theorem afterRead_storeTarget (addr : Word) (s : State) : storeTarget addr (afterRead addr s) = storeTarget addr s :=
  storeTarget_of_plain (afterRead_cfg addr s) fun h => (afterRead_plain s h).1

theorem memWrite_storeTarget (addr : Word) (v : Byte) (s : State) :
    storeTarget addr (memWrite addr v s) = storeTarget addr s :=
  storeTarget_of_plain (memWrite_cfg addr v s) fun h => (memWrite_plain v s h).1

/-! ### Stores -/

/-- A write-class operand stores at its effective address, as resolved after the cycles before its write. -/
theorem writeOp_ramKeptBut (m : WriteMode) (v : Byte) (s : State) :
    RamKeptBut [storeTarget (writeAddress m s).1 (writeAddress m s).2] s (writeOp m v s) := by
  obtain ⟨es, hwrite, h⟩ := writeAddress_spec m s
  exact (h.ramKeptBut_of_reads hwrite.reads).trans (memWrite_ramKeptBut _ v _)

theorem writeOp_registersKept (m : WriteMode) (v : Byte) (s : State) : RegistersKept s (writeOp m v s) := by
  obtain ⟨_, _, _, _, _, h⟩ := writeOp_spec m v s
  exact h.registersKept

/-- An instruction that is a write-class operand changes the byte at its effective address alone. -/
theorem store_frame {i : Instr} {m : WriteMode} {v : Byte} {s t : State} (hexec : exec i s = .next (writeOp m v s))
    (h : exec i s = .next t) :
    RamKeptBut [storeTarget (writeAddress m s).1 (writeAddress m s).2] s t ∧ RegistersKept s t := by
  cases hexec.symm.trans h
  exact ⟨writeOp_ramKeptBut m v s, writeOp_registersKept m v s⟩

/-! ### Read-modify-write -/

/-- The read, the dummy write and the write of an RMW operand store at one offset (40_addressing.md R152). -/
theorem modify_ramKeptBut (ea : Word) (f : Byte → Byte) (s : State) :
    RamKeptBut [storeTarget ea s] s (modify ea f s).2 := by
  have hdummy := memWrite_ramKeptBut ea (readValue ea s) (afterRead ea s)
  have hwrite := memWrite_ramKeptBut ea (f (readValue ea s)) (memWrite ea (readValue ea s) (afterRead ea s))
  rw [afterRead_storeTarget] at hdummy
  rw [memWrite_storeTarget, afterRead_storeTarget] at hwrite
  exact RamKeptBut.mono (by simp) (((afterRead_ramKeptBut ea s).trans hdummy).trans hwrite)

/-- An RMW operand in memory has an effective address, and makes only reads before its own. -/
theorem rmwAddress_spec {m : RmwMode} (hm : m ≠ .acc) (s : State) :
    ∃ ea u es, rmwAddress m s = some (ea, u) ∧ Cycles s es u ∧ ∀ e ∈ es, e.type = .peek := by
  cases m with
  | acc => exact absurd rfl hm
  | zp p => exact ⟨_, _, _, rfl, Cycles.nil s, by simp⟩
  | zpx p => exact ⟨_, _, _, rfl, Cycles.read_one _ s, by simp [peekEvent]⟩
  | abs addr => exact ⟨_, _, _, rfl, Cycles.nil s, by simp⟩
  | abx base => exact ⟨_, _, _, rfl, Cycles.read_one _ s, by simp [peekEvent]⟩

theorem rmwOp_of_address {m : RmwMode} {s u : State} {ea : Word} (h : rmwAddress m s = some (ea, u)) (f : Byte → Byte) :
    rmwOp m f s = modify ea f u := by
  rw [rmwOp, h]

/-- An instruction that sets flags after an RMW operand in memory changes the byte at its effective address and the flags
alone. -/
theorem modify_frame {i : Instr} {m : RmwMode} {f : Byte → Byte} {p : Flags} {s t : State} (hm : m ≠ .acc)
    (hexec : exec i s = .next ((rmwOp m f s).2.setFlags p)) (h : exec i s = .next t) :
    ∃ ea u, rmwAddress m s = some (ea, u) ∧ RamKeptBut [storeTarget ea u] s t ∧
      RegistersKept s { t with p := s.p } := by
  obtain ⟨ea, u, es, haddr, hu, hreads⟩ := rmwAddress_spec hm s
  obtain ⟨_, _, _, hregs⟩ := rmwOp_spec m f s hm
  obtain ⟨ha, hx, hy, hsp, hpc, _⟩ := hregs.registersKept
  cases hexec.symm.trans h
  refine ⟨ea, u, haddr, ?_, ha, hx, hy, hsp, hpc, rfl⟩
  rw [rmwOp_of_address haddr]
  exact (hu.ramKeptBut_of_reads hreads).trans (modify_ramKeptBut ea f u)

/-- Settles O46: a store is a write-class operand, and the rest are RMW operands after which flags are set. -/
theorem storesAndModifiesFrame : Obligations.StoresAndModifiesFrame := fun _ _ =>
  ⟨fun _ => store_frame rfl, fun _ => store_frame rfl, fun _ => store_frame rfl, fun _ => store_frame rfl,
    fun _ => store_frame rfl, fun _ => store_frame rfl, fun _ => store_frame rfl, fun _ => store_frame rfl,
    fun _ => store_frame rfl, fun _ => store_frame rfl, fun _ => store_frame rfl, fun _ => store_frame rfl,
    fun _ => store_frame rfl,
    fun _ => modify_frame nofun rfl, fun _ => modify_frame nofun rfl, fun _ => modify_frame nofun rfl,
    fun _ => modify_frame nofun rfl, fun _ => modify_frame nofun rfl, fun _ => modify_frame nofun rfl,
    fun _ => modify_frame nofun rfl, fun _ => modify_frame nofun rfl, fun _ => modify_frame nofun rfl,
    fun _ => modify_frame nofun rfl, fun _ => modify_frame nofun rfl, fun _ => modify_frame nofun rfl,
    fun _ => modify_frame nofun rfl, fun _ => modify_frame nofun rfl, fun _ => modify_frame nofun rfl,
    fun _ => modify_frame nofun rfl, fun _ => modify_frame nofun rfl, fun _ => modify_frame nofun rfl,
    fun _ => modify_frame nofun rfl, fun _ => modify_frame nofun rfl, fun _ => modify_frame nofun rfl,
    fun _ => modify_frame nofun rfl, fun _ => modify_frame nofun rfl, fun _ => modify_frame nofun rfl⟩

end Sys2Proof.Machine
end

section
/-! SUPPORT. How many bus cycles each instruction makes (O50): the cycles of each operation and operand form, and, per
instruction, that with its fetches they are the count of its row in the opcode map, plus the page-cross or branch cycles. -/

namespace Sys2Proof.Machine

/-! ### Operands -/

/-- The cycle an indexed read takes more when it crosses a page (40_addressing.md R146, R149). -/
def crossCycle (base : Word) (idx : Byte) : Nat := if hiByte (base + zext16 idx) = hiByte base then 0 else 1

/-- The cycles of a read-class operand after its fetches when no page is crossed (40_addressing.md R143 to R149). -/
def ReadMode.leastCycles : ReadMode → Nat
  | .imm _ => 0
  | .zp _ | .abs _ | .abx _ | .aby _ => 1
  | .zpx _ | .zpy _ => 2
  | .izy _ => 3
  | .izx _ => 4

/-- The cycles a page cross adds to a read-class operand. -/
def ReadMode.crossCycle (s : State) : ReadMode → Nat
  | .abx base => Machine.crossCycle base s.x
  | .aby base => Machine.crossCycle base s.y
  | .izy p => Machine.crossCycle (readPointer p s).1 s.y
  | _ => 0

/-- The cycles of a write-class operand after its fetches (40_addressing.md R144 to R149). -/
def WriteMode.cycles : WriteMode → Nat
  | .zp _ | .abs _ => 1
  | .zpx _ | .zpy _ | .abx _ | .aby _ => 2
  | .izx _ | .izy _ => 4

/-- The cycles of an RMW-class operand after its fetches (40_addressing.md R142 to R147, R152). -/
def RmwMode.cycles : RmwMode → Nat
  | .acc => 1
  | .zp _ | .abs _ => 3
  | .zpx _ | .abx _ => 4

/-- The cycles of a branch after its fetches (40_addressing.md R151). -/
def branchCycles (cond : Bool) (d : Byte) (pc : Word) : Nat :=
  if cond = false then 0 else if hiByte (pc + sext16 d) = hiByte pc then 1 else 2

theorem crossCycle_le (base : Word) (idx : Byte) : crossCycle base idx ≤ 1 := by
  unfold crossCycle; split <;> omega

theorem crossCycle_eq_one (base : Word) (idx : Byte) :
    crossCycle base idx = 1 ↔ hiByte (base + zext16 idx) ≠ hiByte base := by
  unfold crossCycle; split <;> simp [*]

section
variable (s : State)

theorem readIndexed_cycles (base : Word) (idx : Byte) :
    (readIndexed base idx s).2.cycles = s.cycles + 1 + crossCycle base idx := by
  unfold readIndexed crossCycle
  by_cases hpage : hiByte (base + zext16 idx) = hiByte base
  · simp [hpage, (unfixed_eq_indexed base idx).2 hpage, memRead]
  · simp [hpage, mt (unfixed_eq_indexed base idx).1 hpage, memRead]

theorem readPointer_cycles (q : Byte) : (readPointer q s).2.cycles = s.cycles + 2 := by
  simp [readPointer, memRead]

theorem readOp_cycles (m : ReadMode) : (readOp m s).2.cycles = s.cycles + m.leastCycles + m.crossCycle s := by
  cases m with
  | imm v => rfl
  | zp p | zpx p | zpy p | abs addr => simp [readOp, memRead, dummyRead, ReadMode.leastCycles, ReadMode.crossCycle]
  | abx base | aby base => exact readIndexed_cycles s base _
  | izx p =>
    simp [readOp, readPointerX, readPointer_cycles, memRead, dummyRead, ReadMode.leastCycles, ReadMode.crossCycle]
  | izy p => rw [readOp, readIndexed_cycles, readPointer_cycles]; rfl

theorem writeOp_cycles (m : WriteMode) (v : Byte) : (writeOp m v s).cycles = s.cycles + m.cycles := by
  cases m <;> simp [writeOp, writeAddress, readPointerX, readPointer_cycles, dummyRead, WriteMode.cycles]

theorem modify_cycles (ea : Word) (f : Byte → Byte) : (modify ea f s).2.cycles = s.cycles + 3 := by
  simp [modify, memRead]

theorem rmwOp_cycles (m : RmwMode) (f : Byte → Byte) : (rmwOp m f s).2.cycles = s.cycles + m.cycles := by
  cases m <;> simp [rmwOp, rmwAddress, modify_cycles, dummyRead, RmwMode.cycles]

theorem branchIf_cycles (cond : Bool) (d : Byte) :
    (branchIf cond d s).cycles = s.cycles + branchCycles cond d s.pc := by
  unfold branchIf branchCycles
  cases cond with
  | false => rfl
  | true => by_cases hpage : hiByte (s.pc + sext16 d) = hiByte s.pc <;> simp [hpage, dummyRead]

theorem branchIf_pc (cond : Bool) (d : Byte) :
    (branchIf cond d s).pc = if cond = false then s.pc else s.pc + sext16 d := by
  cases cond <;> rfl

/-! ### The other operations -/

theorem impliedCycle_cycles : (impliedCycle s).cycles = s.cycles + 1 := afterRead_cycles s.pc s

theorem pull_cycles : (pull s).2.cycles = s.cycles + 1 := afterRead_cycles _ (s.setSp (s.sp + 1))

theorem push_cycles (v : Byte) : (push v s).cycles = s.cycles + 1 := memWrite_cycles _ v s

theorem pushAfter_cycles (v : Byte) : (push v (impliedCycle s)).cycles = s.cycles + 2 := by
  rw [push_cycles, impliedCycle_cycles]

theorem pullByte_cycles : (pullByte s).2.cycles = s.cycles + 3 := by
  simp [pullByte, pull_cycles, impliedCycle_cycles, dummyRead]

theorem jumpIndirect_cycles (ptr : Word) : (jumpIndirect ptr s).cycles = s.cycles + 2 := by
  simp [jumpIndirect, readIndirect, memRead]

theorem callSubroutine_cycles (target : Word) : (callSubroutine target s).cycles = s.cycles + 4 := by
  simp [callSubroutine, memRead, push_cycles, dummyRead]

theorem returnFromSubroutine_cycles : (returnFromSubroutine s).cycles = s.cycles + 5 := by
  simp [returnFromSubroutine, pull_cycles, impliedCycle_cycles, dummyRead]

theorem returnFromInterrupt_cycles : (returnFromInterrupt s).cycles = s.cycles + 5 := by
  simp [returnFromInterrupt, leave, pull_cycles, impliedCycle_cycles, dummyRead]

theorem breakEntry_cycles : (breakEntry s).cycles = s.cycles + 6 := by
  obtain ⟨es, hlen, h⟩ := breakEntry_run s
  rw [h.cycles, hlen]

end

/-! ### The rows of the opcode map -/

/-- The opcode map as R124 draws it, a row for each high nibble. -/
def opcodeGrid : List (List OpcodeRow) := [
  opcodeMap0, opcodeMap1, opcodeMap2, opcodeMap3, opcodeMap4, opcodeMap5, opcodeMap6, opcodeMap7,
  opcodeMap8, opcodeMap9, opcodeMapA, opcodeMapB, opcodeMapC, opcodeMapD, opcodeMapE, opcodeMapF]

/-- The cell of the grid for an opcode: a lookup of two short steps, where that of `opcodeRow` is one of up to 256. -/
def gridCell (op : Byte) : Option OpcodeRow := opcodeGrid[op.toNat / 16]?.bind fun row => row[op.toNat % 16]?

/-- The place in a list of rows of one length is the row and the column. -/
theorem getElem?_flatten_uniform {α : Type} {k : Nat} (hk : 0 < k) : ∀ {rows : List (List α)} (n : Nat),
    (∀ row ∈ rows, row.length = k) → rows.flatten[n]? = rows[n / k]?.bind fun row => row[n % k]?
  | [], _, _ => rfl
  | row :: rows, n, h => by
    obtain ⟨hrow, hrows⟩ := List.forall_mem_cons.1 h
    rw [List.flatten_cons]
    by_cases hn : n < k
    · rw [List.getElem?_append_left (by omega), Nat.div_eq_of_lt hn, Nat.mod_eq_of_lt hn]
      rfl
    · have hk' : k ≤ n := Nat.not_lt.1 hn
      rw [List.getElem?_append_right (by omega), hrow, getElem?_flatten_uniform hk _ hrows, Nat.div_eq_sub_div hk hk',
        Nat.mod_eq_sub_mod hk', List.getElem?_cons_succ]

theorem gridCell_eq (op : Byte) : gridCell op = some (opcodeRow op) := by
  have hflat : opcodeMap = opcodeGrid.flatten := by simp [opcodeMap, opcodeGrid]
  have hlen : ∀ row ∈ opcodeGrid, row.length = 16 := by decide
  rw [← getElem?_opcodeMap, hflat, getElem?_flatten_uniform (by decide) _ hlen, gridCell]

/-- The row of an instruction is the cell of its first byte. -/
theorem row_of_gridCell {i : Instr} {code : Byte} {operand : List Byte} {r : OpcodeRow}
    (hbytes : encode i = code :: operand) (hcell : gridCell code = some r) : i.row = r := by
  rw [gridCell_eq] at hcell
  rw [Instr.row, Instr.opcode, hbytes]
  exact Option.some.inj hcell

/-- The bytes of a read-class operand (30_encoding.md R120, R122). -/
def ReadMode.bytes : ReadMode → List Byte
  | .imm b | .zp b | .zpx b | .zpy b | .izx b | .izy b => [b]
  | .abs w | .abx w | .aby w => wordBytes w

/-- The mode of a read-class operand (30_encoding.md R122). -/
def ReadMode.mode : ReadMode → Mode
  | .imm _ => .imm
  | .zp _ => .zp
  | .zpx _ => .zpx
  | .zpy _ => .zpy
  | .abs _ => .abs
  | .abx _ => .abx
  | .aby _ => .aby
  | .izx _ => .izx
  | .izy _ => .izy

/-- Whether a page cross adds a cycle to a read-class operand of this mode (70_reset_and_hazards.md R366). -/
def ReadMode.crosses : ReadMode → Bool
  | .abx _ | .aby _ | .izy _ => true
  | _ => false

theorem ReadMode.crossCycle_le (m : ReadMode) (s : State) : m.crossCycle s ≤ 1 := by
  cases m with
  | abx base | aby base => exact Machine.crossCycle_le base _
  | izy p => exact Machine.crossCycle_le _ s.y
  | _ => exact Nat.zero_le 1

theorem ReadMode.crossCycle_of_not_crosses {m : ReadMode} (h : m.crosses = false) (s : State) : m.crossCycle s = 0 := by
  cases m with
  | abx base | aby base | izy p => cases h
  | _ => rfl

theorem ReadMode.mode_ne_rel (m : ReadMode) : m.mode ≠ .rel := by cases m <;> nofun

/-! ### Every instruction -/

/-- How long an instruction takes past its fetches, next to what its row counts: its operand, of which the row counts the
least cycles, for the read class; the branch cycles, of which the row counts none, for a branch; the row's count for
every other. -/
inductive Timing (i : Instr) (s t : State) : Prop
  | read {m : ReadMode} {code : Byte} {op : Operation} {form : Form} (hcycles : t.cycles = (readOp m s).2.cycles)
    (hbytes : encode i = code :: m.bytes)
    (hcell : gridCell code = some ⟨op, m.mode, form, fetchedBytes i + m.leastCycles, m.crosses⟩)
  | branch {cond : Bool} {d code : Byte} {op : Operation} {form : Form} (hresult : t = branchIf cond d s)
    (hbytes : encode i = [code, d]) (hcell : gridCell code = some ⟨op, .rel, form, fetchedBytes i, false⟩)
    (hcond : branchCondition op s.p = some cond)
  | fixed {n : Nat} {code : Byte} {operand : List Byte} {op : Operation} {mode : Mode} {form : Form}
    (hcycles : t.cycles = s.cycles + n) (hbytes : encode i = code :: operand)
    (hcell : gridCell code = some ⟨op, mode, form, fetchedBytes i + n, false⟩) (hmode : mode ≠ .rel)

/-- Every instruction completes in the time of its row. -/
theorem exec_timing (i : Instr) (s : State) : ∃ t, exec i s = .next t ∧ Timing i s t := by
  cases i
  -- the read class: every such operation is its operand and then register updates
  case adcIzx | adcZp | adcImm | adcAbs | adcIzy | adcZpx | adcAby | adcAbx
    | sbcIzx | sbcZp | sbcImm | sbcAbs | sbcIzy | sbcZpx | sbcAby | sbcAbx
    | andIzx | andZp | andImm | andAbs | andIzy | andZpx | andAby | andAbx
    | oraIzx | oraZp | oraImm | oraAbs | oraIzy | oraZpx | oraAby | oraAbx
    | eorIzx | eorZp | eorImm | eorAbs | eorIzy | eorZpx | eorAby | eorAbx
    | cmpIzx | cmpZp | cmpImm | cmpAbs | cmpIzy | cmpZpx | cmpAby | cmpAbx
    | cpxImm | cpxZp | cpxAbs | cpyImm | cpyZp | cpyAbs | bitZp | bitAbs
    | ldaIzx | ldaZp | ldaImm | ldaAbs | ldaIzy | ldaZpx | ldaAby | ldaAbx
    | ldxImm | ldxZp | ldxAbs | ldxZpy | ldxAby | ldyImm | ldyZp | ldyAbs | ldyZpx | ldyAbx =>
    exact ⟨_, rfl, .read rfl rfl rfl⟩
  case bpl | bmi | bvc | bvs | bcc | bcs | bne | beq => exact ⟨_, rfl, .branch rfl rfl rfl rfl⟩
  -- the write and the RMW class
  case staIzx | staZp | staAbs | staIzy | staZpx | staAby | staAbx | stxZp | stxAbs | stxZpy | styZp | styAbs
    | styZpx => exact ⟨_, rfl, .fixed (writeOp_cycles s _ _) rfl rfl nofun⟩
  case incZp | incAbs | incZpx | incAbx | decZp | decAbs | decZpx | decAbx
    | aslAcc | aslZp | aslAbs | aslZpx | aslAbx | lsrAcc | lsrZp | lsrAbs | lsrZpx | lsrAbx
    | rolAcc | rolZp | rolAbs | rolZpx | rolAbx | rorAcc | rorZp | rorAbs | rorZpx | rorAbx =>
    exact ⟨_, rfl, .fixed (rmwOp_cycles s _ _) rfl rfl nofun⟩
  -- the implied mode, the stack and the jumps
  case clc | cld | cli | clv | sec | sed | sei | nop | inx | iny | dex | dey | tax | tay | tsx | txa | txs | tya =>
    exact ⟨_, rfl, .fixed (impliedCycle_cycles s) rfl rfl nofun⟩
  case pha | php => exact ⟨_, rfl, .fixed (pushAfter_cycles s _) rfl rfl nofun⟩
  case pla | plp => exact ⟨_, rfl, .fixed (pullByte_cycles s) rfl rfl nofun⟩
  case jmpAbs => exact ⟨_, rfl, .fixed (n := 0) rfl rfl rfl nofun⟩
  case jmpInd => exact ⟨_, rfl, .fixed (jumpIndirect_cycles s _) rfl rfl nofun⟩
  case jsr => exact ⟨_, rfl, .fixed (callSubroutine_cycles s _) rfl rfl nofun⟩
  case rts => exact ⟨_, rfl, .fixed (returnFromSubroutine_cycles s) rfl rfl nofun⟩
  case rti => exact ⟨_, rfl, .fixed (returnFromInterrupt_cycles s) rfl rfl nofun⟩
  -- BRK, and the undocumented bytes, which act as it (46_illegal_opcodes.md R300)
  all_goals exact ⟨_, rfl, .fixed (breakEntry_cycles s) rfl rfl nofun⟩

theorem timing_of_exec {i : Instr} {s t : State} (h : exec i s = .next t) : Timing i s t := by
  obtain ⟨t', ht, htiming⟩ := exec_timing i s
  cases h.symm.trans ht
  exact htiming

/-- Settles O50: the bus log by `exec_run`, which makes one record per cycle, and the count by `Timing`. -/
theorem cycleCounts : Obligations.CycleCounts := by
  intro i s t h extra
  have hlog : t.buslog.length + s.cycles = s.buslog.length + t.cycles := by
    obtain ⟨es, t', ht, hrun⟩ := exec_run i s
    cases h.symm.trans ht
    rw [hrun.buslog, hrun.cycles, List.length_append]
    omega
  cases timing_of_exec h with
  | fixed hcycles hbytes hcell hmode =>
    have hrow := row_of_gridCell hbytes hcell
    have hextra : extra = 0 := by simp only [extra, hrow]; omega
    rw [hrow]
    exact ⟨by simp only; omega, hlog, fun _ _ => hextra, nofun, fun h => absurd h hmode⟩
  | @read m _ _ _ hcycles hbytes hcell =>
    have hrow := row_of_gridCell hbytes hcell
    rw [readOp_cycles] at hcycles
    have hextra : extra = m.crossCycle s := by simp only [extra, hrow]; omega
    rw [hrow, hextra]
    refine ⟨by simp only; omega, hlog, fun hcross _ => m.crossCycle_of_not_crosses hcross s,
      fun hcross => ⟨m.crossCycle_le s, ?_⟩, fun hmode => absurd hmode m.mode_ne_rel⟩
    cases m with
    | abx base =>
      exact .inl ⟨rfl, _, _, _, hbytes, by rw [wordOf_hi_lo]; exact crossCycle_eq_one base s.x⟩
    | aby base =>
      exact .inr (.inl ⟨rfl, _, _, _, hbytes, by rw [wordOf_hi_lo]; exact crossCycle_eq_one base s.y⟩)
    | izy p =>
      refine .inr (.inr ⟨rfl, _, _, hbytes, (crossCycle_eq_one (readPointer p s).1 s.y).trans ?_⟩)
      rw [readPointer, hiByte_wordOf]
    | _ => cases hcross
  | @branch cond d _ _ _ hresult hbytes hcell hcond =>
    have hrow := row_of_gridCell hbytes hcell
    have hcycles := branchIf_cycles s cond d
    have hpc := branchIf_pc s cond d
    rw [← hresult] at hcycles hpc
    have hextra : extra = branchCycles cond d s.pc := by simp only [extra, hrow]; omega
    rw [hrow, hextra]
    refine ⟨by simp only; omega, hlog, fun _ hmode => absurd rfl hmode, nofun,
      fun _ => ⟨_, d, cond, hbytes, hcond, ?_⟩⟩
    cases cond with
    | false => exact ⟨rfl, hpc⟩
    | true => exact ⟨hpc, by rw [hpc]; rfl⟩

end Sys2Proof.Machine
end

section
/-! SUPPORT. Loads, stores and register transfers: each is a read-class operand, a write-class operand or the implied cycle,
and then at most one register and N and Z (O25, O26, O27). -/

namespace Sys2Proof.Machine

/-! ### A register update that sets N and Z -/

theorem setNZ_eq_nzOf (p : Flags) (v : Byte) : p.setNZ v = nzOf p v := rfl

section
variable {s u : State} (hp : u.p = s.p) (v : Byte)
include hp

theorem setA_setNZ_eq : (u.setA v).setNZ v = { u with a := v, p := nzOf s.p v } := by
  rw [← hp, ← setNZ_eq_nzOf]; rfl

theorem setX_setNZ_eq : (u.setX v).setNZ v = { u with x := v, p := nzOf s.p v } := by
  rw [← hp, ← setNZ_eq_nzOf]; rfl

theorem setY_setNZ_eq : (u.setY v).setNZ v = { u with y := v, p := nzOf s.p v } := by
  rw [← hp, ← setNZ_eq_nzOf]; rfl

end

theorem readOp_p (m : ReadMode) (s : State) : (readOp m s).2.p = s.p := by
  obtain ⟨_, _, h⟩ := readOp_spec m s
  exact h.p_eq

theorem impliedCycle_p (s : State) : (impliedCycle s).p = s.p := afterRead_p s.pc s

/-! ### Instructions by shape -/

section
variable {code : Byte} {i : Instr} {s : State} (hcode : i.opcode = code)
include hcode

/-- An instruction that is a read-class operand and then `result` (40_addressing.md R157). -/
theorem readsThen_of_exec {m : ReadMode} {result : Byte → State → State}
    (hexec : exec i s = .next (result (readOp m s).1 (readOp m s).2)) : ReadsThen code i m s result := by
  obtain ⟨es, hread, hcycles⟩ := readOp_spec m s
  exact ⟨hcode, es, _, _, hread, hcycles, hexec⟩

/-- An instruction that is a write-class operand (40_addressing.md R157). -/
theorem storesByte_of_exec {m : WriteMode} {v : Byte} (hexec : exec i s = .next (writeOp m v s)) :
    StoresByte code i m v s := by
  obtain ⟨es, ea, w, hwrite, hw, hcycles⟩ := writeOp_spec m v s
  exact ⟨hcode, es, ea, w, _, hwrite, hw, hcycles, hexec⟩

/-- An instruction that is the implied mode's cycle and then `result` (40_addressing.md R142). -/
theorem impliedThen_of_exec {result : State → State} (hexec : exec i s = .next (result (impliedCycle s))) :
    ImpliedThen code i s result :=
  ⟨hcode, _, _, peekEvent_isRead _ _, Cycles.read_one _ _, hexec⟩

/-! ### Loads -/

theorem readsThen_of_loadA {m : ReadMode} (hexec : exec i s = .next (loadA m s)) :
    ReadsThen code i m s fun v u => { u with a := v, p := nzOf s.p v } :=
  readsThen_of_exec hcode (hexec.trans (congrArg _ (setA_setNZ_eq (readOp_p m s) _)))

theorem readsThen_of_loadX {m : ReadMode} (hexec : exec i s = .next (loadX m s)) :
    ReadsThen code i m s fun v u => { u with x := v, p := nzOf s.p v } :=
  readsThen_of_exec hcode (hexec.trans (congrArg _ (setX_setNZ_eq (readOp_p m s) _)))

theorem readsThen_of_loadY {m : ReadMode} (hexec : exec i s = .next (loadY m s)) :
    ReadsThen code i m s fun v u => { u with y := v, p := nzOf s.p v } :=
  readsThen_of_exec hcode (hexec.trans (congrArg _ (setY_setNZ_eq (readOp_p m s) _)))

/-! ### Implied-mode register updates -/

theorem impliedThen_of_setA {v : Byte} (hexec : exec i s = .next (((impliedCycle s).setA v).setNZ v)) :
    ImpliedThen code i s fun u => { u with a := v, p := nzOf s.p v } :=
  impliedThen_of_exec hcode (hexec.trans (congrArg _ (setA_setNZ_eq (impliedCycle_p s) v)))

theorem impliedThen_of_setX {v : Byte} (hexec : exec i s = .next (((impliedCycle s).setX v).setNZ v)) :
    ImpliedThen code i s fun u => { u with x := v, p := nzOf s.p v } :=
  impliedThen_of_exec hcode (hexec.trans (congrArg _ (setX_setNZ_eq (impliedCycle_p s) v)))

theorem impliedThen_of_setY {v : Byte} (hexec : exec i s = .next (((impliedCycle s).setY v).setNZ v)) :
    ImpliedThen code i s fun u => { u with y := v, p := nzOf s.p v } :=
  impliedThen_of_exec hcode (hexec.trans (congrArg _ (setY_setNZ_eq (impliedCycle_p s) v)))

end

/-- Settles O25: eight forms are `loadA` of their mode, five `loadX` and five `loadY`. -/
theorem loadsReadTheirOperand : Obligations.LoadsReadTheirOperand := fun _ =>
  ⟨fun _ => readsThen_of_loadA rfl rfl, fun _ => readsThen_of_loadA rfl rfl, fun _ => readsThen_of_loadA rfl rfl,
    fun _ => readsThen_of_loadA rfl rfl, fun _ => readsThen_of_loadA rfl rfl, fun _ => readsThen_of_loadA rfl rfl,
    fun _ => readsThen_of_loadA rfl rfl, fun _ => readsThen_of_loadA rfl rfl,
    fun _ => readsThen_of_loadX rfl rfl, fun _ => readsThen_of_loadX rfl rfl, fun _ => readsThen_of_loadX rfl rfl,
    fun _ => readsThen_of_loadX rfl rfl, fun _ => readsThen_of_loadX rfl rfl,
    fun _ => readsThen_of_loadY rfl rfl, fun _ => readsThen_of_loadY rfl rfl, fun _ => readsThen_of_loadY rfl rfl,
    fun _ => readsThen_of_loadY rfl rfl, fun _ => readsThen_of_loadY rfl rfl⟩

/-- Settles O26: each of the thirteen forms is `writeOp` of its mode and register. -/
theorem storesWriteTheirRegister : Obligations.StoresWriteTheirRegister := fun _ =>
  ⟨fun _ => storesByte_of_exec rfl rfl, fun _ => storesByte_of_exec rfl rfl, fun _ => storesByte_of_exec rfl rfl,
    fun _ => storesByte_of_exec rfl rfl, fun _ => storesByte_of_exec rfl rfl, fun _ => storesByte_of_exec rfl rfl,
    fun _ => storesByte_of_exec rfl rfl, fun _ => storesByte_of_exec rfl rfl, fun _ => storesByte_of_exec rfl rfl,
    fun _ => storesByte_of_exec rfl rfl, fun _ => storesByte_of_exec rfl rfl, fun _ => storesByte_of_exec rfl rfl,
    fun _ => storesByte_of_exec rfl rfl⟩

/-- Settles O27: the implied cycle, then the copy with N and Z; TXS, the last, sets S alone. -/
theorem transfersCopyARegister : Obligations.TransfersCopyARegister := fun _ =>
  ⟨impliedThen_of_setX rfl rfl, impliedThen_of_setY rfl rfl, impliedThen_of_setA rfl rfl, impliedThen_of_setA rfl rfl,
    impliedThen_of_setX rfl rfl, impliedThen_of_exec rfl rfl⟩

end Sys2Proof.Machine
end

section
/-! SUPPORT. Add, subtract, compare, increment and decrement as instructions: a read-class operand, a
read-modify-write operand or the implied cycle, and then one register and the flags (O28, O30, O31, O32, O33). -/

namespace Sys2Proof.Machine

/-! ### Register and flag updates after an operand -/

section
variable {s u : State} (hp : u.p = s.p)
include hp

theorem setA_setAlu_eq (r : AluResult) : (u.setA r.result).setFlags (u.p.setAlu r) =
    { u with a := r.result, p := { s.p with n := r.n, v := r.v, z := r.z, c := r.c } } := by
  rw [hp]; rfl

/-- A compare is the unsigned order, equality and the wrapped difference's sign (42_arithmetic.md R206). -/
theorem setFlags_setCompare_eq (r v : Byte) : u.setFlags (u.p.setCompare r v) =
    { u with p := { s.p with c := decide (v.toNat ≤ r.toNat), z := decide (r = v), n := (r - v).msb } } := by
  rw [hp]; rfl

theorem setNZ_eq (v : Byte) : u.setNZ v = { u with p := nzOf s.p v } := by
  rw [← hp, ← setNZ_eq_nzOf]; rfl

end

theorem rmwOp_p {m : RmwMode} (hm : m ≠ .acc) (f : Byte → Byte) (s : State) : (rmwOp m f s).2.p = s.p := by
  obtain ⟨_, _, _, h⟩ := rmwOp_spec m f s hm
  exact h.p_eq

/-- The decimal subtracter differs from the binary one in its result alone (42_arithmetic.md R203), so D chooses the
result and not the flags. -/
theorem ite_sbcDec_sbcBin_eq (d : Bool) (a v : Byte) (c : Bool) : (if d = true then sbcDec a v c else sbcBin a v c) =
    { sbcBin a v c with result := if d = true then (sbcDec a v c).result else (sbcBin a v c).result } := by
  cases d <;> rfl

/-! ### Instructions by shape -/

section
variable {code : Byte} {i : Instr} {s : State} (hcode : i.opcode = code)
include hcode

theorem readsThen_of_addToA {m : ReadMode} (hexec : exec i s = .next (addToA m s)) :
    ReadsThen code i m s fun v u =>
      let r := if s.p.d = true then adcDec s.a v s.p.c else adcBin s.a v s.p.c
      { u with a := r.result, p := { s.p with n := r.n, v := r.v, z := r.z, c := r.c } } :=
  readsThen_of_exec hcode (hexec.trans (congrArg _ (setA_setAlu_eq (readOp_p m s) _)))

theorem readsThen_of_subtractFromA {m : ReadMode} (hexec : exec i s = .next (subtractFromA m s)) :
    ReadsThen code i m s fun v u =>
      let f := sbcBin s.a v s.p.c
      { u with
        a := if s.p.d = true then (sbcDec s.a v s.p.c).result else f.result
        p := { s.p with n := f.n, v := f.v, z := f.z, c := f.c } } := by
  refine readsThen_of_exec hcode (hexec.trans (congrArg _ ?_))
  rw [subtractFromA, ite_sbcDec_sbcBin_eq]
  exact setA_setAlu_eq (readOp_p m s) _

theorem readsThen_of_compareWith {m : ReadMode} {reg : Byte} (hexec : exec i s = .next (compareWith reg m s)) :
    ReadsThen code i m s fun v u =>
      { u with p := { s.p with c := decide (v.toNat ≤ reg.toNat), z := decide (reg = v), n := (reg - v).msb } } :=
  readsThen_of_exec hcode (hexec.trans (congrArg _ (setFlags_setCompare_eq (readOp_p m s) reg _)))

/-- An instruction that is an RMW-class operand in memory and then the flags the byte read gives (40_addressing.md R157). -/
theorem modifies_of_exec {m : RmwMode} {f : Byte → Byte} {flags : Byte → Flags} (hm : m ≠ .acc)
    (hexec : exec i s = .next { (rmwOp m f s).2 with p := flags (rmwOp m f s).1 }) : Modifies code i m f s flags := by
  obtain ⟨es, ea, hrmw, hcycles⟩ := rmwOp_spec m f s hm
  exact ⟨hcode, es, ea, _, _, hrmw, hcycles, hexec⟩

theorem modifies_of_stepMemory {m : RmwMode} {f : Byte → Byte} (hm : m ≠ .acc)
    (hexec : exec i s = .next (stepMemory m f s)) : Modifies code i m f s fun v => nzOf s.p (f v) :=
  modifies_of_exec hcode hm (hexec.trans (congrArg _ (setNZ_eq (rmwOp_p hm f s) _)))

end

/-- Settles O28: the implied cycle, then the step of X or Y with N and Z. -/
theorem indexStepsWrap : Obligations.IndexStepsWrap := fun _ =>
  ⟨impliedThen_of_setX rfl rfl, impliedThen_of_setY rfl rfl, impliedThen_of_setX rfl rfl, impliedThen_of_setY rfl rfl⟩

/-- Settles O30: each of the eight forms is `addToA` of its mode. -/
theorem addWithCarry : Obligations.AddWithCarry := fun _ =>
  ⟨fun _ => readsThen_of_addToA rfl rfl, fun _ => readsThen_of_addToA rfl rfl, fun _ => readsThen_of_addToA rfl rfl,
    fun _ => readsThen_of_addToA rfl rfl, fun _ => readsThen_of_addToA rfl rfl, fun _ => readsThen_of_addToA rfl rfl,
    fun _ => readsThen_of_addToA rfl rfl, fun _ => readsThen_of_addToA rfl rfl⟩

/-- Settles O31: each of the eight forms is `subtractFromA` of its mode. -/
theorem subtractWithBorrow : Obligations.SubtractWithBorrow := fun _ =>
  ⟨fun _ => readsThen_of_subtractFromA rfl rfl, fun _ => readsThen_of_subtractFromA rfl rfl,
    fun _ => readsThen_of_subtractFromA rfl rfl, fun _ => readsThen_of_subtractFromA rfl rfl,
    fun _ => readsThen_of_subtractFromA rfl rfl, fun _ => readsThen_of_subtractFromA rfl rfl,
    fun _ => readsThen_of_subtractFromA rfl rfl, fun _ => readsThen_of_subtractFromA rfl rfl⟩

/-- Settles O32: eight forms are `compareWith` of A, three of X and three of Y. -/
theorem comparesSetThreeFlags : Obligations.ComparesSetThreeFlags := fun _ =>
  ⟨fun _ => readsThen_of_compareWith rfl rfl, fun _ => readsThen_of_compareWith rfl rfl,
    fun _ => readsThen_of_compareWith rfl rfl, fun _ => readsThen_of_compareWith rfl rfl,
    fun _ => readsThen_of_compareWith rfl rfl, fun _ => readsThen_of_compareWith rfl rfl,
    fun _ => readsThen_of_compareWith rfl rfl, fun _ => readsThen_of_compareWith rfl rfl,
    fun _ => readsThen_of_compareWith rfl rfl, fun _ => readsThen_of_compareWith rfl rfl,
    fun _ => readsThen_of_compareWith rfl rfl,
    fun _ => readsThen_of_compareWith rfl rfl, fun _ => readsThen_of_compareWith rfl rfl,
    fun _ => readsThen_of_compareWith rfl rfl⟩

/-- Settles O33: each of the eight forms is `stepMemory` of a mode in memory. -/
theorem incrementAndDecrementMemory : Obligations.IncrementAndDecrementMemory := fun _ =>
  ⟨fun _ => modifies_of_stepMemory rfl nofun rfl, fun _ => modifies_of_stepMemory rfl nofun rfl,
    fun _ => modifies_of_stepMemory rfl nofun rfl, fun _ => modifies_of_stepMemory rfl nofun rfl,
    fun _ => modifies_of_stepMemory rfl nofun rfl, fun _ => modifies_of_stepMemory rfl nofun rfl,
    fun _ => modifies_of_stepMemory rfl nofun rfl, fun _ => modifies_of_stepMemory rfl nofun rfl⟩

end Sys2Proof.Machine
end

section
/-! SUPPORT. The adders and subtracters of 42_arithmetic.md R200 to R203 as integer arithmetic (O21, O22, O23). The binary
ones are a sum modulo 256 whose V says that the signed sum has no byte. The decimal ones work digit by digit: each digit's sum or
difference is its decimal digit and a carry or borrow of 10, which the adjustment turns into one of 16. -/

namespace Sys2Proof.Machine

/-! ### Bytes and their nibbles -/

theorem toNat_and_0F (a : Byte) : (a &&& 0x0F).toNat = a.toNat % 16 := by
  rw [BitVec.toNat_and]
  exact Nat.and_two_pow_sub_one_eq_mod a.toNat 4

theorem toNat_and_F0 (a : Byte) : (a &&& 0xF0).toNat = a.toNat / 16 * 16 := by
  have hmask : a &&& (0xF0 : Byte) = a >>> 4 <<< 4 := (BitVec.shiftLeft_ushiftRight (x := a) (n := 4)).symm
  have ha := a.isLt
  rw [hmask, BitVec.toNat_shiftLeft, BitVec.toNat_ushiftRight, Nat.shiftLeft_eq, Nat.shiftRight_eq_div_pow]
  omega

/-- Bit 7 of a byte is set from 0x80 on. -/
theorem getLsbD_seven_iff (v : Byte) : v.getLsbD 7 = true ↔ 0x80 ≤ v.toNat := by
  change v.msb = true ↔ _
  rw [BitVec.msb_eq_decide, decide_eq_true_iff]

theorem and_0x80_ne_zero (v : Byte) : (v &&& 0x80 != 0) = v.msb := by
  have hmask : v &&& 0x80 = if v.getLsbD 7 = true then 0x80 else 0 := BitVec.and_twoPow v 7
  have hmsb : v.msb = v.getLsbD 7 := rfl
  rw [hmask, hmsb]
  cases v.getLsbD 7 <;> rfl

/-! ### Binary addition and subtraction -/

section
variable (a m : Byte) (c : Bool)

theorem adcBin_result : (adcBin a m c).result.toNat = (a.toNat + m.toNat + c.toNat) % 0x100 :=
  BitVec.toNat_ofNat _ _

theorem adcBin_c : (adcBin a m c).c = true ↔ 0xFF < a.toNat + m.toNat + c.toNat := decide_eq_true_iff

theorem adcBin_n : (adcBin a m c).n = true ↔ 0x80 ≤ (adcBin a m c).result.toNat := getLsbD_seven_iff _

theorem adcBin_z : (adcBin a m c).z = true ↔ (adcBin a m c).result = 0 := beq_iff_eq

/-- V compares the operands' signs with that of the result: both operands differ from it. -/
theorem adcBin_v_eq : (adcBin a m c).v =
    ((a.msb ^^ (adcBin a m c).result.msb) && (m.msb ^^ (adcBin a m c).result.msb)) := by
  rw [← BitVec.msb_xor, ← BitVec.msb_xor, ← BitVec.msb_and]
  exact and_0x80_ne_zero _

/-- Both operands' signs differ from the result's exactly when the signed sum is no signed byte (42_arithmetic.md R200). -/
theorem adcBin_v : (adcBin a m c).v = true ↔ a.toInt + m.toInt + c.toNat < -128 ∨ 127 < a.toInt + m.toInt + c.toNat := by
  have ha := a.isLt
  have hm := m.isLt
  have hc := c.toNat_le
  simp only [adcBin_v_eq, BitVec.msb_eq_decide, adcBin_result, BitVec.toInt_eq_toNat_cond, Bool.and_eq_true, bne_iff_ne,
    ne_eq, decide_eq_decide, Nat.reduceSub, Nat.reducePow]
  split <;> split <;> omega

/-- Adding the complement of `m` is subtracting `m + 1` modulo 256 (42_arithmetic.md R202). -/
theorem sbcBin_result :
    ((sbcBin a m c).result.toNat : Int) = ((a.toNat : Int) - m.toNat - (1 - c.toNat)) % 0x100 := by
  have hm := m.isLt
  rw [sbcBin, adcBin_result, BitVec.toNat_not]
  omega

/-- C is "no borrow" (42_arithmetic.md R202). -/
theorem sbcBin_c : (sbcBin a m c).c = true ↔ 0 ≤ (a.toNat : Int) - m.toNat - (1 - c.toNat) := by
  have hm := m.isLt
  rw [sbcBin, adcBin_c, BitVec.toNat_not]
  omega

theorem toInt_not_byte : (~~~m).toInt = -1 - m.toInt := by
  have hm := m.isLt
  rw [BitVec.toInt_eq_toNat_cond, BitVec.toInt_eq_toNat_cond, BitVec.toNat_not]
  split <;> split <;> omega

theorem sbcBin_v : (sbcBin a m c).v = true ↔
    a.toInt - m.toInt - (1 - c.toNat) < -128 ∨ 127 < a.toInt - m.toInt - (1 - c.toNat) := by
  rw [sbcBin, adcBin_v, toInt_not_byte]
  omega

end

/-- Settles O21: the adder's fields, and the subtracter's as those of the adder on the complement. -/
theorem binaryAddAndSubtract : Obligations.BinaryAddAndSubtract := fun a m c =>
  ⟨adcBin_result a m c, adcBin_c a m c, adcBin_v a m c, adcBin_n a m c, adcBin_z a m c,
    sbcBin_result a m c, sbcBin_c a m c, sbcBin_v a m c, adcBin_n a (~~~m) c, adcBin_z a (~~~m) c⟩

/-! ### Decimal digits -/

/-- The number two BCD digits stand for. -/
def bcdValue (n : Nat) : Nat := n / 16 * 10 + n % 16

/-- Both nibbles are decimal digits. -/
def BcdValid (n : Nat) : Prop := n / 16 < 10 ∧ n % 16 < 10

theorem bcd_of_digits {n hi lo : Nat} (hn : n = 16 * hi + lo) (hhi : hi < 10) (hlo : lo < 10) :
    BcdValid n ∧ bcdValue n = 10 * hi + lo := by
  unfold BcdValid bcdValue
  omega

/-! ### Decimal addition -/

/-- The sum of `adcDec` before the high digit is adjusted (42_arithmetic.md R201). -/
def adcDecSum (a m : Byte) (c : Bool) : Nat := a.toNat / 16 * 16 + m.toNat / 16 * 16 + adcDecLow a m c

/-- That sum with its high digit adjusted: the result with the carry above it (42_arithmetic.md R201). -/
def adcDecTotal (a m : Byte) (c : Bool) : Nat :=
  if 0xA0 ≤ adcDecSum a m c then adcDecSum a m c + 0x60 else adcDecSum a m c

/-- The signed byte of the high nibble. -/
def signedHigh (n : Nat) : Int := if n < 128 then ((n / 16 * 16 : Nat) : Int) else ((n / 16 * 16 : Nat) : Int) - 256

theorem toInt_and_F0 (a : Byte) : (a &&& 0xF0).toInt = signedHigh a.toNat := by
  rw [BitVec.toInt_eq_toNat_cond, toNat_and_F0, signedHigh]
  split <;> split <;> omega

section
variable (a m : Byte) (c : Bool)

theorem adcDecLow_eq : adcDecLow a m c =
    if 0x0A ≤ a.toNat % 16 + m.toNat % 16 + c.toNat then (a.toNat % 16 + m.toNat % 16 + c.toNat + 0x06) % 16 + 0x10
    else a.toNat % 16 + m.toNat % 16 + c.toNat := by
  rw [← toNat_and_0F, ← toNat_and_0F]; rfl

theorem adcDec_result : (adcDec a m c).result.toNat = adcDecTotal a m c % 0x100 := by
  rw [adcDecTotal, adcDecSum, ← toNat_and_F0, ← toNat_and_F0]
  exact BitVec.toNat_ofNat _ _

theorem adcDec_c : (adcDec a m c).c = true ↔ 0x100 ≤ adcDecTotal a m c := by
  rw [adcDecTotal, adcDecSum, ← toNat_and_F0, ← toNat_and_F0]
  exact decide_eq_true_iff

theorem adcDec_n : (adcDec a m c).n = true ↔ 0x80 ≤ adcDecSum a m c % 0x100 := by
  have hbit : (adcDec a m c).n = (adcDecSum a m c).testBit 7 := by
    rw [adcDecSum, ← toNat_and_F0, ← toNat_and_F0]; rfl
  rw [hbit, Nat.testBit_eq_decide_div_mod_eq, decide_eq_true_iff]
  omega

theorem adcDec_v : (adcDec a m c).v = true ↔
    signedHigh a.toNat + signedHigh m.toNat + adcDecLow a m c < -128 ∨
      127 < signedHigh a.toNat + signedHigh m.toNat + adcDecLow a m c := by
  rw [← toInt_and_F0, ← toInt_and_F0]
  exact Bool.or_eq_true_iff.trans (or_congr decide_eq_true_iff decide_eq_true_iff)

theorem adcDec_z : (adcDec a m c).z = true ↔ (a.toNat + m.toNat + c.toNat) % 0x100 = 0 := beq_iff_eq

/-- The low digits' sum is a decimal digit and a carry of 10, which the adjustment makes one of 16. -/
theorem adcDecLow_digit (ha : a.toNat % 16 < 10) (hm : m.toNat % 16 < 10) : ∃ lo k, lo < 10 ∧ k ≤ 1 ∧
    a.toNat % 16 + m.toNat % 16 + c.toNat = 10 * k + lo ∧ adcDecLow a m c = 16 * k + lo := by
  have hc := c.toNat_le
  rw [adcDecLow_eq]
  split
  · exact ⟨a.toNat % 16 + m.toNat % 16 + c.toNat - 10, 1, by omega⟩
  · exact ⟨a.toNat % 16 + m.toNat % 16 + c.toNat, 0, by omega⟩

/-- On valid operands the adjusted sum is the two decimal digits of the sum, with the carry out of them at 0x100. -/
theorem adcDecTotal_digits (ha : BcdValid a.toNat) (hm : BcdValid m.toNat) : ∃ hi lo k, hi < 10 ∧ lo < 10 ∧ k ≤ 1 ∧
    bcdValue a.toNat + bcdValue m.toNat + c.toNat = 100 * k + 10 * hi + lo ∧
    adcDecTotal a m c = 256 * k + 16 * hi + lo := by
  obtain ⟨hahi, halo⟩ := ha
  obtain ⟨hmhi, hmlo⟩ := hm
  obtain ⟨lo, kl, hlo, hkl, hsum, hlow⟩ := adcDecLow_digit a m c halo hmlo
  unfold bcdValue adcDecTotal adcDecSum
  rw [hlow]
  split
  · exact ⟨a.toNat / 16 + m.toNat / 16 + kl - 10, lo, 1, by omega⟩
  · exact ⟨a.toNat / 16 + m.toNat / 16 + kl, lo, 0, by omega⟩

/-- On valid operands `adcDec` is decimal addition (42_arithmetic.md R201). -/
theorem adcDec_bcd (ha : BcdValid a.toNat) (hm : BcdValid m.toNat) :
    BcdValid (adcDec a m c).result.toNat ∧
      bcdValue (adcDec a m c).result.toNat = (bcdValue a.toNat + bcdValue m.toNat + c.toNat) % 100 ∧
      ((adcDec a m c).c = true ↔ 100 ≤ bcdValue a.toNat + bcdValue m.toNat + c.toNat) := by
  obtain ⟨hi, lo, k, hhi, hlo, hk, hsum, htotal⟩ := adcDecTotal_digits a m c ha hm
  obtain ⟨hvalid, hvalue⟩ := bcd_of_digits (n := (adcDec a m c).result.toNat)
    (by rw [adcDec_result, htotal]; omega) hhi hlo
  rw [adcDec_c, hvalue, hsum, htotal]
  exact ⟨hvalid, by omega, by omega⟩

end

/-- Settles O22: the fields of the algorithm, and the digits of its result on valid operands. -/
theorem decimalAdd : Obligations.DecimalAdd := fun a m c => by
  have hresult := adcDec_result a m c
  have hn := adcDec_n a m c
  have hv := adcDec_v a m c
  have hc := adcDec_c a m c
  simp only [adcDecTotal, adcDecSum, adcDecLow_eq] at hresult hn hv hc
  exact ⟨hresult, hn, hv, hc, adcDec_z a m c, adcDec_bcd a m c⟩

/-! ### Decimal subtraction -/

/-- The difference of `sbcDec` before the high digit is adjusted (42_arithmetic.md R203). -/
def sbcDecDiff (a m : Byte) (c : Bool) : Int :=
  (a.toNat / 16 * 16 : Nat) - (m.toNat / 16 * 16 : Nat) + sbcDecLow a m c

/-- That difference with its high digit adjusted (42_arithmetic.md R203). -/
def sbcDecTotal (a m : Byte) (c : Bool) : Int :=
  if sbcDecDiff a m c < 0 then sbcDecDiff a m c - 0x60 else sbcDecDiff a m c

section
variable (a m : Byte) (c : Bool)

theorem sbcDecLow_eq : sbcDecLow a m c =
    if ((a.toNat % 16 : Nat) : Int) - (m.toNat % 16 : Nat) + c.toNat - 1 < 0 then
      (((a.toNat % 16 : Nat) : Int) - (m.toNat % 16 : Nat) + c.toNat - 1 - 0x06) % 16 - 0x10
    else ((a.toNat % 16 : Nat) : Int) - (m.toNat % 16 : Nat) + c.toNat - 1 := by
  rw [← toNat_and_0F, ← toNat_and_0F]; rfl

theorem sbcDec_result : ((sbcDec a m c).result.toNat : Int) = sbcDecTotal a m c % 0x100 := by
  have hofInt : (sbcDec a m c).result = BitVec.ofInt 8 (sbcDecTotal a m c) := by
    rw [sbcDecTotal, sbcDecDiff, ← toNat_and_F0, ← toNat_and_F0]; rfl
  rw [hofInt, BitVec.toNat_ofInt]
  omega

/-- The low digits' difference is a decimal digit less a borrow of 10, which the adjustment makes one of 16. -/
theorem sbcDecLow_digit (ha : a.toNat % 16 < 10) (hm : m.toNat % 16 < 10) : ∃ lo k : Nat, lo < 10 ∧ k ≤ 1 ∧
    ((a.toNat % 16 : Nat) : Int) - (m.toNat % 16 : Nat) + c.toNat - 1 = lo - 10 * k ∧ sbcDecLow a m c = lo - 16 * k := by
  have hc := c.toNat_le
  rw [sbcDecLow_eq]
  split
  · exact ⟨a.toNat % 16 + 10 + c.toNat - 1 - m.toNat % 16, 1, by omega⟩
  · exact ⟨a.toNat % 16 + c.toNat - 1 - m.toNat % 16, 0, by omega⟩

/-- On valid operands the adjusted difference is the two decimal digits of the difference, less a borrow of 0x100. -/
theorem sbcDecTotal_digits (ha : BcdValid a.toNat) (hm : BcdValid m.toNat) :
    ∃ hi lo k : Nat, hi < 10 ∧ lo < 10 ∧ k ≤ 1 ∧
      (bcdValue a.toNat : Int) - bcdValue m.toNat - (1 - c.toNat) = 10 * hi + lo - 100 * k ∧
      sbcDecTotal a m c = 16 * hi + lo - 256 * k := by
  obtain ⟨hahi, halo⟩ := ha
  obtain ⟨hmhi, hmlo⟩ := hm
  obtain ⟨lo, kl, hlo, hkl, hdiff, hlow⟩ := sbcDecLow_digit a m c halo hmlo
  unfold bcdValue sbcDecTotal sbcDecDiff
  rw [hlow]
  split
  · exact ⟨a.toNat / 16 + 10 - m.toNat / 16 - kl, lo, 1, by omega⟩
  · exact ⟨a.toNat / 16 - m.toNat / 16 - kl, lo, 0, by omega⟩

/-- On valid operands the result of `sbcDec` is the decimal difference (42_arithmetic.md R203). -/
theorem sbcDec_bcd (ha : BcdValid a.toNat) (hm : BcdValid m.toNat) :
    BcdValid (sbcDec a m c).result.toNat ∧ (bcdValue (sbcDec a m c).result.toNat : Int) =
      ((bcdValue a.toNat : Int) - bcdValue m.toNat - (1 - c.toNat)) % 100 := by
  obtain ⟨hi, lo, k, hhi, hlo, hk, hdiff, htotal⟩ := sbcDecTotal_digits a m c ha hm
  have hresult := sbcDec_result a m c
  obtain ⟨hvalid, hvalue⟩ := bcd_of_digits (n := (sbcDec a m c).result.toNat) (by omega) hhi hlo
  rw [hvalue, hdiff]
  exact ⟨hvalid, by omega⟩

end

/-- Settles O23: the result of the algorithm, the binary flags it takes over, and its digits on valid operands. -/
theorem decimalSubtract : Obligations.DecimalSubtract := fun a m c => by
  have hresult := sbcDec_result a m c
  simp only [sbcDecTotal, sbcDecDiff, sbcDecLow_eq] at hresult
  exact ⟨hresult, rfl, rfl, rfl, rfl, sbcDec_bcd a m c⟩

end Sys2Proof.Machine
end

section
/-! SUPPORT. Bitwise logic, bit test, shifts and rotates as instructions: a read-class operand, a read-modify-write operand
or the implied cycle, and then A and the flags (O34, O35). The shifts are doubling and halving, and the bit a rotate brings in
falls on a place the shift has cleared, so that joining it is adding it. -/

namespace Sys2Proof.Machine

/-! ### Shifts and rotates as arithmetic -/

theorem shiftLeft_eq_mul (v : Byte) : shiftLeft v = v * 2 := BitVec.shiftLeft_eq_mul_twoPow v 1

theorem shiftRight_eq_div (v : Byte) : shiftRight v = v / 2 :=
  (BitVec.udiv_twoPow_eq_of_lt (x := v) (k := 1) (by decide)).symm

/-- A flag joined at a clear bit is added there. -/
theorem or_flagBit_eq_add {v : Byte} {k : Nat} (hclear : v.getLsbD k = false) (c : Bool) :
    v ||| flagBit c k = v + flagBit c k := by
  refine (BitVec.add_eq_or_of_and_eq_zero v _ (BitVec.eq_of_getLsbD_eq fun j _ => ?_)).symm
  rw [BitVec.getLsbD_and, getLsbD_flagBit, BitVec.getLsbD_zero]
  by_cases hj : j = k
  · rw [hj, hclear, Bool.false_and]
  · rw [decide_eq_false hj, Bool.and_false, Bool.and_false]

/-- ROL is doubling plus the carry of the start (43_logic_shift.md R236). -/
theorem rotateLeft_eq_mul_add (c : Bool) (v : Byte) : rotateLeft c v = v * 2 + (if c = true then 1 else 0) := by
  have hclear : (shiftLeft v).getLsbD 0 = false := by simp [shiftLeft]
  rw [← shiftLeft_eq_mul]
  exact or_flagBit_eq_add hclear c

/-- ROR is halving plus the carry of the start in bit 7 (43_logic_shift.md R237). -/
theorem rotateRight_eq_div_add (c : Bool) (v : Byte) : rotateRight c v = v / 2 + (if c = true then 0x80 else 0) := by
  have hclear : (shiftRight v).getLsbD 7 = false := by simp [shiftRight]
  rw [← shiftRight_eq_div]
  exact or_flagBit_eq_add hclear c

/-! ### Flag updates after an operand -/

section
variable {s u : State} (hp : u.p = s.p)
include hp

/-- BIT's Z is of A AND the operand, its N and V of the operand alone (43_logic_shift.md R233). -/
theorem setFlags_setBit_eq (a v : Byte) : u.setFlags (u.p.setBit a v) =
    { u with p := { s.p with z := decide (a &&& v = 0), n := v.getLsbD 7, v := v.getLsbD 6 } } := by
  rw [hp]; rfl

theorem setFlags_setShift_eq (carry : Bool) (r : Byte) :
    u.setFlags (u.p.setShift carry r) = { u with p := { nzOf s.p r with c := carry } } := by
  rw [hp]; rfl

end

/-! ### Instructions by shape -/

section
variable {code : Byte} {i : Instr} {s : State} (hcode : i.opcode = code)
include hcode

theorem readsThen_of_combineA {m : ReadMode} {op : Byte → Byte → Byte} (hexec : exec i s = .next (combineA m op s)) :
    ReadsThen code i m s fun v u => { u with a := op s.a v, p := nzOf s.p (op s.a v) } :=
  readsThen_of_exec hcode (hexec.trans (congrArg _ (setA_setNZ_eq (readOp_p m s) _)))

theorem readsThen_of_testBits {m : ReadMode} (hexec : exec i s = .next (testBits m s)) :
    ReadsThen code i m s fun v u =>
      { u with p := { s.p with z := decide (s.a &&& v = 0), n := v.getLsbD 7, v := v.getLsbD 6 } } :=
  readsThen_of_exec hcode (hexec.trans (congrArg _ (setFlags_setBit_eq (readOp_p m s) s.a _)))

section
variable {f g : Byte → Byte} {carryBit : Nat} (hf : ∀ v, f v = g v)
include hf

theorem modifies_of_shiftOp {m : RmwMode} (hm : m ≠ .acc) (hexec : exec i s = .next (shiftOp m f carryBit s)) :
    Modifies code i m g s fun v => { nzOf s.p (g v) with c := v.getLsbD carryBit } := by
  cases funext hf
  exact modifies_of_exec hcode hm (hexec.trans (congrArg _ (setFlags_setShift_eq (rmwOp_p hm f s) _ _)))

/-- The accumulator form has the implied mode's cycle for its operand (40_addressing.md R142). -/
theorem impliedThen_of_shiftOp_acc (hexec : exec i s = .next (shiftOp .acc f carryBit s)) :
    ImpliedThen code i s fun u => { u with a := g s.a, p := { nzOf s.p (g s.a) with c := s.a.getLsbD carryBit } } := by
  cases funext hf
  have hp : ((impliedCycle s).setA (f s.a)).p = s.p := impliedCycle_p s
  exact impliedThen_of_exec hcode (hexec.trans (congrArg _ (setFlags_setShift_eq hp _ _)))

end
end

/-- Settles O34: the eight forms each of AND, ORA and EOR are `combineA` of their mode and operator, the two of BIT
`testBits` of their mode. -/
theorem logicAndBitTest : Obligations.LogicAndBitTest := fun _ =>
  ⟨fun _ => readsThen_of_combineA rfl rfl, fun _ => readsThen_of_combineA rfl rfl,
    fun _ => readsThen_of_combineA rfl rfl, fun _ => readsThen_of_combineA rfl rfl,
    fun _ => readsThen_of_combineA rfl rfl, fun _ => readsThen_of_combineA rfl rfl,
    fun _ => readsThen_of_combineA rfl rfl, fun _ => readsThen_of_combineA rfl rfl,
    fun _ => readsThen_of_combineA rfl rfl, fun _ => readsThen_of_combineA rfl rfl,
    fun _ => readsThen_of_combineA rfl rfl, fun _ => readsThen_of_combineA rfl rfl,
    fun _ => readsThen_of_combineA rfl rfl, fun _ => readsThen_of_combineA rfl rfl,
    fun _ => readsThen_of_combineA rfl rfl, fun _ => readsThen_of_combineA rfl rfl,
    fun _ => readsThen_of_combineA rfl rfl, fun _ => readsThen_of_combineA rfl rfl,
    fun _ => readsThen_of_combineA rfl rfl, fun _ => readsThen_of_combineA rfl rfl,
    fun _ => readsThen_of_combineA rfl rfl, fun _ => readsThen_of_combineA rfl rfl,
    fun _ => readsThen_of_combineA rfl rfl, fun _ => readsThen_of_combineA rfl rfl,
    fun _ => readsThen_of_testBits rfl rfl, fun _ => readsThen_of_testBits rfl rfl⟩

/-- Settles O35: each form is `shiftOp` of its mode with the shift or rotate of its operation, four times in memory and
once in the accumulator. -/
theorem shiftsAndRotates : Obligations.ShiftsAndRotates := fun s =>
  have asl := shiftLeft_eq_mul
  have lsr := shiftRight_eq_div
  have rol := rotateLeft_eq_mul_add s.p.c
  have ror := rotateRight_eq_div_add s.p.c
  ⟨fun _ => modifies_of_shiftOp rfl asl nofun rfl, fun _ => modifies_of_shiftOp rfl asl nofun rfl,
    fun _ => modifies_of_shiftOp rfl asl nofun rfl, fun _ => modifies_of_shiftOp rfl asl nofun rfl,
    fun _ => modifies_of_shiftOp rfl lsr nofun rfl, fun _ => modifies_of_shiftOp rfl lsr nofun rfl,
    fun _ => modifies_of_shiftOp rfl lsr nofun rfl, fun _ => modifies_of_shiftOp rfl lsr nofun rfl,
    fun _ => modifies_of_shiftOp rfl rol nofun rfl, fun _ => modifies_of_shiftOp rfl rol nofun rfl,
    fun _ => modifies_of_shiftOp rfl rol nofun rfl, fun _ => modifies_of_shiftOp rfl rol nofun rfl,
    fun _ => modifies_of_shiftOp rfl ror nofun rfl, fun _ => modifies_of_shiftOp rfl ror nofun rfl,
    fun _ => modifies_of_shiftOp rfl ror nofun rfl, fun _ => modifies_of_shiftOp rfl ror nofun rfl,
    impliedThen_of_shiftOp_acc rfl asl rfl, impliedThen_of_shiftOp_acc rfl lsr rfl,
    impliedThen_of_shiftOp_acc rfl rol rfl, impliedThen_of_shiftOp_acc rfl ror rfl⟩

end Sys2Proof.Machine
end

section
/-! SUPPORT. Subroutines, RTI and BRK as runs of bus cycles (O38, O39, O41). The register updates between the cycles are moved
to the end, which no cycle sees. -/

namespace Sys2Proof.Machine

/-! ### S after several pushes or pulls -/

theorem sub_one_sub_one (k : Byte) : k - 1 - 1 = k - 2 := BitVec.sub_sub k 1 1

theorem add_one_add_one (k : Byte) : k + 1 + 1 = k + 2 := BitVec.add_assoc k 1 1

theorem add_two_add_one (k : Byte) : k + 2 + 1 = k + 3 := BitVec.add_assoc k 2 1

/-! ### JSR -/

/-- JSR is a read, two writes and a read, and then its new S and PC (44_control_flow.md R260). -/
theorem callSubroutine_eq (target : Word) (s : State) :
    let u1 := afterRead (stackAddr s.sp) s
    let u2 := memWrite (stackAddr s.sp) (hiByte s.pc) u1
    let u3 := memWrite (stackAddr (s.sp - 1)) (loByte s.pc) u2
    callSubroutine target s =
      { afterRead s.pc u3 with sp := s.sp - 2, pc := wordOf (readValue s.pc u3) (loByte target) } := by
  simp only [callSubroutine, push, dummyRead, memRead, memWrite_setSp, afterRead_setSp, readValue_setSp, setSp_sp, setSp_pc,
    afterRead_sp, memWrite_pc, afterRead_pc, sub_one_sub_one]
  simp only [State.setSp, State.setPc]

/-- Settles O38: the four cycles of `callSubroutine_eq`. -/
theorem jumpToSubroutine : Obligations.JumpToSubroutine := fun s w =>
  ⟨rfl, stackAddr_bytes, _, _, _, _, _, peekEvent_isRead _ _, pokeEvent_isWrite _ _ _, pokeEvent_isWrite _ _ _,
    peekEvent_isRead _ _, Cycles.read _ (Cycles.write _ _ (Cycles.write _ _ (Cycles.read_one _ _))),
    congrArg Host.Outcome.next (callSubroutine_eq w s)⟩

/-! ### RTS and RTI -/

/-- RTS is five reads, and then its new S and PC (44_control_flow.md R261). -/
theorem returnFromSubroutine_eq (s : State) :
    let u2 := afterRead (stackAddr s.sp) (afterRead s.pc s)
    let u3 := afterRead (stackAddr (s.sp + 1)) u2
    let u4 := afterRead (stackAddr (s.sp + 2)) u3
    let target := wordOf (readValue (stackAddr (s.sp + 2)) u3) (readValue (stackAddr (s.sp + 1)) u2)
    returnFromSubroutine s = { afterRead target u4 with sp := s.sp + 2, pc := target + 1 } := by
  simp only [returnFromSubroutine, impliedCycle, pull, dummyRead, memRead, afterRead_setSp, readValue_setSp, setSp_sp,
    afterRead_sp, add_one_add_one]
  simp only [State.setSp, State.setPc]

/-- RTI is five reads, and then its new S, PC and flags (44_control_flow.md R262). -/
theorem returnFromInterrupt_eq (s : State) :
    let u2 := afterRead (stackAddr s.sp) (afterRead s.pc s)
    let u3 := afterRead (stackAddr (s.sp + 1)) u2
    let u4 := afterRead (stackAddr (s.sp + 2)) u3
    returnFromInterrupt s = { afterRead (stackAddr (s.sp + 3)) u4 with
      sp := s.sp + 3
      pc := wordOf (readValue (stackAddr (s.sp + 3)) u4) (readValue (stackAddr (s.sp + 2)) u3)
      p := unpackP (readValue (stackAddr (s.sp + 1)) u2) } := by
  simp only [returnFromInterrupt, leave, impliedCycle, pull, dummyRead, memRead, afterRead_setSp, afterRead_setFlags,
    readValue_setSp, readValue_setFlags, setSp_sp, setFlags_sp, afterRead_sp, add_one_add_one, add_two_add_one]
  simp only [State.setSp, State.setPc, State.setFlags]

/-- Settles O39: the five reads of `returnFromSubroutine_eq` and of `returnFromInterrupt_eq`. -/
theorem returnsPullThePc : Obligations.ReturnsPullThePc := fun s =>
  ⟨⟨rfl, _, _, _, _, _, _, peekEvent_isRead _ _, peekEvent_isRead _ _, peekEvent_isRead _ _, peekEvent_isRead _ _,
      peekEvent_isRead _ _, Cycles.read _ (Cycles.read _ (Cycles.read _ (Cycles.read _ (Cycles.read_one _ _)))),
      congrArg Host.Outcome.next (returnFromSubroutine_eq s)⟩,
    rfl, _, _, _, _, _, _, peekEvent_isRead _ _, peekEvent_isRead _ _, peekEvent_isRead _ _, peekEvent_isRead _ _,
    peekEvent_isRead _ _, Cycles.read _ (Cycles.read _ (Cycles.read _ (Cycles.read _ (Cycles.read_one _ _)))),
    congrArg Host.Outcome.next (returnFromInterrupt_eq s)⟩

/-! ### BRK -/

theorem push_setPc (v : Byte) (s : State) (pc : Word) : push v (s.setPc pc) = (push v s).setPc pc :=
  congrArg (State.setSp · (s.sp - 1)) (memWrite_setPc _ v s pc)

theorem saveContext_setPc (pushedPc : Word) (b : Bool) (s : State) (pc : Word) :
    saveContext pushedPc b (s.setPc pc) = (saveContext pushedPc b s).setPc pc := by
  simp only [saveContext, push_setPc, setPc_p]
  rfl

theorem jumpThrough_setPc (vector : Word) (s : State) (pc : Word) :
    jumpThrough vector (s.setPc pc) = jumpThrough vector s := by
  simp only [jumpThrough, memRead, afterRead_setPc, readValue_setPc]
  rfl

/-- An entry does not see PC: what it pushes is given, and it ends with the vector. -/
theorem enter_setPc (vector pushedPc : Word) (b : Bool) (s : State) (pc : Word) :
    enter vector pushedPc b (s.setPc pc) = enter vector pushedPc b s := by
  rw [enter, saveContext_setPc, jumpThrough_setPc, enter]

/-- BRK is the fetch of its second byte and the entry (44_control_flow.md R263). -/
theorem breakEntry_eq_enter (s : State) : breakEntry s = enter irqVector (s.pc + 1) true (afterRead s.pc s) :=
  enter_setPc irqVector (s.pc + 1) true (afterRead s.pc s) (s.pc + 1)

/-- An instruction that runs the sequence of BRK completes as BRK does: the fetch of the second byte, then the cycles of the
entry. -/
theorem entersBreak_of_exec {code : Byte} {i : Instr} {s : State} (hcode : i.opcode = code)
    (hexec : exec i s = .next (breakEntry s)) : EntersBreak code i s := by
  obtain ⟨es, target, u, hentry, hcycles, henter⟩ := enter_spec irqVector (s.pc + 1) true (afterRead s.pc s)
  rw [afterRead_sp, afterRead_p] at hentry henter
  exact ⟨hcode, _, es, target, u, peekEvent_isRead _ _, hentry, Cycles.read _ hcycles,
    hexec.trans (congrArg _ ((breakEntry_eq_enter s).trans henter))⟩

/-- Settles O41: BRK runs the sequence of BRK. -/
theorem breakTakesTheEntry : Obligations.BreakTakesTheEntry := fun _ => entersBreak_of_exec rfl rfl

end Sys2Proof.Machine
end

section
/-! SUPPORT. The stack page as storage: where ALTZP sends it, a push and a pull of the same S reach the same byte, and no read
cycle moves it. From this RTI undoes the entry of BRK (O59). -/

namespace Sys2Proof.Machine

/-! ### Where the stack page is -/

/-- Every access of the stack page goes where the ALTZP term sends it (20_memory.md R61 to R64). -/
theorem resolve_stackAddr (cfg : Config) (k : Byte) (isWrite : Bool) (sw : Registry) :
    resolve cfg (stackAddr k) isWrite sw =
      ⟨.main, (stackAddr k).toNat, sw.altzp && cfg.altzpMode == .standard⟩ := by
  have hk := k.isLt
  have haddr := toNat_stackAddr k
  have hlow : (stackAddr k).toNat < 0x0200 := by omega
  have hzp : auxZpMain cfg (stackAddr k).toNat sw = (sw.altzp && cfg.altzpMode == .standard) := by
    unfold auxZpMain
    cases cfg.altzpMode
    · simp [hlow]
    · simp [Nat.not_le.2 hlow]
  have hdisp : inDisplay (stackAddr k).toNat sw = false := by
    rw [Bool.eq_false_iff, Ne, inDisplay_iff]
    omega
  have hgen : auxGen (stackAddr k).toNat isWrite sw = false := by
    rw [Bool.eq_false_iff, Ne, auxGen_iff]
    omega
  rw [resolve_main (by omega), isAuxMain, auxDisp, hzp, hdisp, hgen]
  cases cfg.store80Mode <;> simp

/-- The RAM offset of a stack address: in the auxiliary bank when the standard ALTZP sends the page there. -/
def stackOffset (s : State) (k : Byte) : Nat :=
  (if s.sw.altzp && s.cfg.altzpMode == .standard && s.cfg.auxPresent then 0x10000 else 0) + (stackAddr k).toNat

theorem stackOffset_inj {s : State} {j k : Byte} : stackOffset s j = stackOffset s k ↔ j = k := by
  simp [stackOffset, toNat_stackAddr, BitVec.toNat_inj]

/-- Only the configuration and the ALTZP switch decide where the stack page is. -/
theorem stackOffset_congr {s t : State} (hcfg : t.cfg = s.cfg) (hsw : t.sw.altzp = s.sw.altzp) (k : Byte) :
    stackOffset t k = stackOffset s k := by
  unfold stackOffset
  rw [hcfg, hsw]

theorem StackBacked.congr {s t : State} (hs : StackBacked s) (hcfg : t.cfg = s.cfg) (hsw : t.sw.altzp = s.sw.altzp) :
    StackBacked t := by
  unfold StackBacked
  rw [hcfg, hsw]
  exact hs

theorem memWrite_stackAddr_sw (k v : Byte) (s : State) : (memWrite (stackAddr k) v s).sw = s.sw :=
  (memWrite_plain v s (stackAddr_plain k)).1

/-! ### Cycles on a backed stack -/

section
variable {s : State} (hs : StackBacked s)
include hs

/-- What a pull reads. -/
theorem StackBacked.readValue_eq (k : Byte) : readValue (stackAddr k) s = s.ram.read (stackOffset s k) := by
  obtain ⟨hhook, -⟩ := hs
  refine readValue_ram (hhook k) ?_
  rw [resolve_stackAddr]
  rfl

/-- Where a push stores. -/
theorem StackBacked.storeTarget_eq (k : Byte) : storeTarget (stackAddr k) s = some (stackOffset s k) := by
  obtain ⟨-, hbank⟩ := hs
  have haux : (s.sw.altzp && s.cfg.altzpMode == .standard) = true → s.cfg.auxPresent = true := by
    simp only [Bool.and_eq_true, beq_iff_eq]
    rintro ⟨haltzp, hmode⟩
    simpa [haltzp, hmode] using hbank
  rw [storeTarget, ramTarget_eq_some, resolve_stackAddr]
  refine ⟨nofun, nofun, haux, congrArg (· + _) (if_congr ?_ rfl rfl)⟩
  rw [Bool.and_eq_true]
  exact and_iff_left_of_imp haux

theorem StackBacked.of_afterRead (addr : Word) : StackBacked (afterRead addr s) :=
  hs.congr (afterRead_cfg addr s) (afterRead_select addr s).1

theorem StackBacked.of_push (v : Byte) : StackBacked (push v s) :=
  hs.congr (memWrite_cfg _ v s) (congrArg _ (memWrite_stackAddr_sw s.sp v s))

/-- A read cycle at any address leaves the stack as it was. -/
theorem StackBacked.readValue_afterRead (addr : Word) (k : Byte) :
    readValue (stackAddr k) (afterRead addr s) = readValue (stackAddr k) s := by
  rw [(hs.of_afterRead addr).readValue_eq, hs.readValue_eq, afterRead_ram,
    stackOffset_congr (afterRead_cfg addr s) (afterRead_select addr s).1]

/-- A push changes the byte at its own S only. -/
theorem StackBacked.readValue_push (hwf : s.ram.wf = true) (v k : Byte) :
    readValue (stackAddr k) (push v s) = if k = s.sp then v else readValue (stackAddr k) s := by
  have hoffset : stackOffset (push v s) k = stackOffset s k :=
    stackOffset_congr (memWrite_cfg _ v s) (congrArg _ (memWrite_stackAddr_sw s.sp v s)) k
  have hread : (push v s).ram.read (stackOffset s k) = if stackOffset s k = stackOffset s s.sp then v else _ :=
    memWrite_read hwf (writeSuppressed_unhooked (hs.1 s.sp)) (hs.storeTarget_eq s.sp) _
  rw [(hs.of_push v).readValue_eq, hs.readValue_eq, hoffset, hread]
  exact if_congr stackOffset_inj rfl rfl

end

theorem push_p (v : Byte) (s : State) : (push v s).p = s.p := memWrite_p _ v s

theorem push_wf {s : State} (hwf : s.ram.wf = true) (v : Byte) : (push v s).ram.wf = true := by
  have hram : (push v s).ram = storedRam (stackAddr s.sp) v s := memWrite_ram (stackAddr s.sp) v s
  rw [hram]
  exact storedRam_wf _ _ _ hwf

/-! ### Entry and return -/

theorem breakEntry_sp (s : State) : (breakEntry s).sp = s.sp - 3 := by
  obtain ⟨-, _, _, _, _, -, -, -, hexec⟩ := breakTakesTheEntry s
  exact congrArg State.sp (Host.Outcome.next.inj hexec)

section
variable {s : State} (hs : StackBacked s)
include hs

theorem StackBacked.of_setPc (pc : Word) : StackBacked (s.setPc pc) := hs

theorem StackBacked.of_setFlags (p : Flags) : StackBacked (s.setFlags p) := hs

theorem StackBacked.of_jumpThrough (vector : Word) : StackBacked (jumpThrough vector s) :=
  ((hs.of_afterRead vector).of_afterRead (vector + 1)).of_setPc _

/-- Reading a vector leaves the stack as it was. -/
theorem StackBacked.readValue_jumpThrough (vector : Word) (k : Byte) :
    readValue (stackAddr k) (jumpThrough vector s) = readValue (stackAddr k) s := by
  rw [← hs.readValue_afterRead vector, ← (hs.of_afterRead vector).readValue_afterRead (vector + 1)]
  exact readValue_setPc _ _ _

theorem StackBacked.of_saveContext (pushedPc : Word) (b : Bool) : StackBacked (saveContext pushedPc b s) :=
  (((hs.of_push (hiByte pushedPc)).of_push (loByte pushedPc)).of_push _).of_setFlags _

/-- The stack the three pushes of an exception entry leave (60_exceptions.md R313). -/
theorem StackBacked.readValue_saveContext (hwf : s.ram.wf = true) (pushedPc : Word) (b : Bool) (k : Byte) :
    readValue (stackAddr k) (saveContext pushedPc b s) =
      if k = s.sp - 2 then packP b s.p else if k = s.sp - 1 then loByte pushedPc else if k = s.sp then hiByte pushedPc
      else readValue (stackAddr k) s := by
  have hback := hs.of_push (hiByte pushedPc)
  rw [saveContext, readValue_setFlags, (hback.of_push _).readValue_push (push_wf (push_wf hwf _) _),
    hback.readValue_push (push_wf hwf _), hs.readValue_push hwf, push_sp, push_sp, sub_one_sub_one, push_p, push_p]

theorem StackBacked.of_breakEntry : StackBacked (breakEntry s) :=
  (((hs.of_afterRead s.pc).of_setPc (s.pc + 1)).of_saveContext _ _).of_jumpThrough irqVector

/-- The stack BRK leaves (44_control_flow.md R263). -/
theorem StackBacked.readValue_breakEntry (hwf : s.ram.wf = true) (k : Byte) :
    readValue (stackAddr k) (breakEntry s) =
      if k = s.sp - 2 then packP true s.p else if k = s.sp - 1 then loByte (s.pc + 1)
      else if k = s.sp then hiByte (s.pc + 1) else readValue (stackAddr k) s := by
  have hback := hs.of_afterRead s.pc
  have hwf' : (afterRead s.pc s).ram.wf = true := by rwa [afterRead_ram]
  rw [breakEntry_eq_enter, enter, (hback.of_saveContext _ _).readValue_jumpThrough, hback.readValue_saveContext hwf',
    afterRead_sp, afterRead_p, hs.readValue_afterRead]

/-- What RTI takes from the stack (44_control_flow.md R262). -/
theorem StackBacked.returnFromInterrupt_pulls :
    (returnFromInterrupt s).p = unpackP (readValue (stackAddr (s.sp + 1)) s) ∧
      (returnFromInterrupt s).sp = s.sp + 3 ∧
      (returnFromInterrupt s).pc =
        wordOf (readValue (stackAddr (s.sp + 3)) s) (readValue (stackAddr (s.sp + 2)) s) := by
  have hback1 := hs.of_afterRead s.pc
  have hback2 := hback1.of_afterRead (stackAddr s.sp)
  have hback3 := hback2.of_afterRead (stackAddr (s.sp + 1))
  rw [returnFromInterrupt_eq]
  simp only [hs.readValue_afterRead, hback1.readValue_afterRead, hback2.readValue_afterRead, hback3.readValue_afterRead,
    and_self]

end

/-- Settles O59: BRK leaves P and PC + 1 in the three bytes above its S, and RTI takes them from there. -/
theorem returnUndoesBreak : Obligations.ReturnUndoesBreak := by
  intro i s t q hop hs hwf hexec
  obtain ⟨hp, hsp, hpc⟩ := (hs.of_breakEntry.of_setPc q).returnFromInterrupt_pulls
  have hflags : s.sp - 3 + 1 = s.sp - 2 := by bv_omega
  have hlow : s.sp - 3 + 2 = s.sp - 1 := by bv_omega
  have hhigh : s.sp - 3 + 3 = s.sp := BitVec.sub_add_cancel _ _
  have hlow_flags : s.sp - 1 ≠ s.sp - 2 := by bv_omega
  have hhigh_flags : s.sp ≠ s.sp - 2 := by bv_omega
  have hhigh_low : s.sp ≠ s.sp - 1 := by bv_omega
  simp only [setPc_sp, readValue_setPc, breakEntry_sp, hs.readValue_breakEntry hwf, hflags, hlow, hhigh, hlow_flags,
    hhigh_flags, hhigh_low, if_true, if_false, unpackP_packP, wordOf_hi_lo] at hp hsp hpc
  rw [exec_of_break hop hexec]
  exact ⟨_, rfl, hp, hsp, hpc⟩

end Sys2Proof.Machine
end

section
/-! SUPPORT. The flag instructions, NOP, pushes and pulls as runs of bus cycles (O29, O40). -/

namespace Sys2Proof.Machine

/-- Settles O29: the implied cycle, and after it one stored flag is set or cleared; NOP, the last, has the cycle only. -/
theorem flagInstructionsWriteOneFlag : Obligations.FlagInstructionsWriteOneFlag := fun _ =>
  ⟨impliedThen_of_exec rfl rfl, impliedThen_of_exec rfl rfl, impliedThen_of_exec rfl rfl, impliedThen_of_exec rfl rfl,
    impliedThen_of_exec rfl rfl, impliedThen_of_exec rfl rfl, impliedThen_of_exec rfl rfl, impliedThen_of_exec rfl rfl⟩

/-! ### Pushes and pulls -/

/-- A push instruction is a read and a write, and then its new S (45_stack_flags_misc.md R280, R281). -/
theorem pushAfter_spec (v : Byte) (s : State) :
    ∃ e w u, e.IsRead s.pc ∧ w.IsWrite (stackAddr s.sp) v ∧ Cycles s [e, w] u ∧
      push v (impliedCycle s) = { u with sp := s.sp - 1 } := by
  obtain ⟨w, u, hw, hcycles, hpush⟩ := push_spec v (impliedCycle s)
  have hsp : (impliedCycle s).sp = s.sp := afterRead_sp s.pc s
  rw [hsp] at hw hpush
  exact ⟨_, w, u, peekEvent_isRead s.pc s, hw, Cycles.read _ hcycles, hpush⟩

/-- A pull instruction is three reads, the last of the byte pulled, and then its new S (45_stack_flags_misc.md R282, R283). -/
theorem pullByte_spec (s : State) :
    ∃ e1 e2 e3 u, e1.IsRead s.pc ∧ e2.IsRead (stackAddr s.sp) ∧ e3.IsRead (stackAddr (s.sp + 1)) ∧
      Cycles s [e1, e2, e3] u ∧ pullByte s = (e3.value, { u with sp := s.sp + 1 }) := by
  obtain ⟨e, u, he, hcycles, hpull⟩ := pull_spec (dummyRead (stackAddr s.sp) (impliedCycle s))
  have hsp : (dummyRead (stackAddr s.sp) (impliedCycle s)).sp = s.sp :=
    (afterRead_sp (stackAddr s.sp) (impliedCycle s)).trans (afterRead_sp s.pc s)
  rw [hsp] at he hpull
  exact ⟨_, _, e, u, peekEvent_isRead s.pc s, peekEvent_isRead _ _, he, Cycles.read _ (Cycles.read _ hcycles), hpull⟩

/-- Settles O40: the two cycles of `pushAfter_spec`, and the three of `pullByte_spec` before A or the flags take the byte. -/
theorem stackInstructions : Obligations.StackInstructions := by
  intro s
  obtain ⟨e1, e2, e3, u, h1, h2, h3, hcycles, hpull⟩ := pullByte_spec s
  have hpla : pullA s = { u with sp := s.sp + 1, a := e3.value, p := nzOf s.p e3.value } := by
    rw [pullA, hpull]
    exact setA_setNZ_eq (u := { u with sp := s.sp + 1 }) hcycles.p_eq e3.value
  have hplp : pullFlags s = { u with sp := s.sp + 1, p := unpackP e3.value } := by
    rw [pullFlags, hpull]
    rfl
  refine ⟨⟨rfl, ?pha⟩, ⟨rfl, ?php⟩, ⟨rfl, ?pla⟩, rfl, ?plp⟩
  case pha =>
    obtain ⟨e, w, t, he, hw, hrun, hpush⟩ := pushAfter_spec s.a s
    exact ⟨e, w, t, he, hw, hrun, congrArg Host.Outcome.next hpush⟩
  case php =>
    obtain ⟨e, w, t, he, hw, hrun, hpush⟩ := pushAfter_spec (packP true s.p) s
    exact ⟨e, w, t, he, hw, hrun, congrArg Host.Outcome.next hpush⟩
  case pla => exact ⟨e1, e2, e3, u, h1, h2, h3, hcycles, congrArg Host.Outcome.next hpla⟩
  case plp => exact ⟨e1, e2, e3, u, h1, h2, h3, hcycles, congrArg Host.Outcome.next hplp⟩

end Sys2Proof.Machine
end

section
/-! SUPPORT. The undocumented opcodes run the sequence of BRK (O42). -/

namespace Sys2Proof.Machine

/-- Every instruction the opcode map marks undocumented completes as the entry of BRK (46_illegal_opcodes.md R300). -/
theorem exec_of_undocumented {i : Instr} (hop : i.row.op = .ill) (s : State) : exec i s = .next (breakEntry s) := by
  obtain ⟨t, hexec, _⟩ := exec_meaning i s
  rw [hexec, exec_of_break (.inr hop) hexec]

/-- Every instruction the opcode map marks undocumented runs, under its own opcode byte, the sequence of BRK. -/
theorem entersBreak_of_undocumented {i : Instr} (hop : i.row.op = .ill) (s : State) : EntersBreak i.opcode i s :=
  entersBreak_of_exec rfl (exec_of_undocumented hop s)

/-- Settles O42: the map marks each of the 105 listed instructions undocumented, and gives it the opcode listed with it. -/
theorem undocumentedOpcodesActAsBreak : Obligations.UndocumentedOpcodesActAsBreak := by
  intro s
  iterate 104 refine ⟨entersBreak_of_undocumented rfl s, ?_⟩
  exact entersBreak_of_undocumented rfl s

end Sys2Proof.Machine
end

section
/-! SUPPORT. The events of a boundary (O55) and the IRQ entry (O51): what each kind of PRE_STEP sweep and of STEP handler does,
and the entry as a run of bus cycles. -/

namespace Sys2Proof.Machine

/-! ### PRE_STEP sweeps -/

/-- A sweep that leaves PC as it is ends the loop (60_exceptions.md R319). -/
theorem prestep_stable (n : Nat) (ws : List Word) (s : State) : prestep n (s.pc :: ws) s = s := if_pos rfl

section
variable {n : Nat} {w : Word} {s : State} (hw : w ≠ s.pc)
include hw

/-- A moving sweep at the bound faults. -/
theorem prestep_limit (hn : n + 1 = s.cfg.prestepLimit) (ws : List Word) :
    prestep n (w :: ws) s = raiseFault .prestepLoop (s.setPc w) :=
  (if_neg hw).trans (if_pos hn)

/-- A moving sweep below the bound is followed by the next one. -/
theorem prestep_move (hn : n + 1 ≠ s.cfg.prestepLimit) (ws : List Word) :
    prestep n (w :: ws) s = prestep (n + 1) ws (s.setPc w) :=
  (if_neg hw).trans (if_neg hn)

end

theorem lastPc_cons (pc w : Word) (ws : List Word) : lastPc pc (w :: ws) = lastPc w ws := List.getLastD_cons

/-- Fewer moving sweeps than the bound leave PC at the last of them, and the sweeps after them go on from there. -/
theorem prestep_moving (rest : List Word) {ws : List Word} {n : Nat} {s : State} (hmoving : Moving s.pc ws)
    (hn : n + ws.length < s.cfg.prestepLimit) :
    prestep n (ws ++ rest) s = prestep (n + ws.length) rest (s.setPc (lastPc s.pc ws)) := by
  induction ws generalizing n s with
  | nil => rfl
  | cons w ws ih =>
    obtain ⟨hw, hmoving⟩ := hmoving
    rw [List.length_cons] at hn ⊢
    have hbelow : n + 1 + ws.length < s.cfg.prestepLimit := by omega
    rw [List.cons_append, prestep_move hw (by omega), ih (s := s.setPc w) hmoving hbelow, lastPc_cons, Nat.add_assoc,
      Nat.add_comm 1]
    rfl

/-- Fewer moving sweeps than the bound and then a stable one, or none listed (log 19), leave PC at the last of them. -/
theorem prestep_settles {sweeps ws rest : List Word} {s : State} (hmoving : Moving s.pc ws)
    (hlimit : ws.length < s.cfg.prestepLimit) (hsweeps : sweeps = ws ∨ sweeps = ws ++ lastPc s.pc ws :: rest) :
    prestep 0 sweeps s = s.setPc (lastPc s.pc ws) := by
  have hmove (after : List Word) := prestep_moving after hmoving ((Nat.zero_add ws.length).trans_lt hlimit)
  rcases hsweeps with rfl | rfl
  · have hnone := hmove []
    rwa [List.append_nil] at hnone
  · rw [hmove]
    exact prestep_stable _ rest (s.setPc (lastPc s.pc ws))

/-- As many moving sweeps as the bound fault, whatever sweeps would follow. -/
theorem prestep_loop (rest : List Word) {ws : List Word} {n : Nat} {s : State} (hmoving : Moving s.pc ws) (hne : ws ≠ [])
    (hn : n + ws.length = s.cfg.prestepLimit) : (prestep n (ws ++ rest) s).fault = some .prestepLoop := by
  induction ws generalizing n s with
  | nil => exact absurd rfl hne
  | cons w ws ih =>
    obtain ⟨hw, hmoving⟩ := hmoving
    rw [List.length_cons] at hn
    rw [List.cons_append]
    by_cases hlimit : n + 1 = s.cfg.prestepLimit
    · rw [prestep_limit hw hlimit, raiseFault_fault]
    · have hws : ws ≠ [] := by
        rintro rfl
        exact hlimit hn
      have hbound : n + 1 + ws.length = s.cfg.prestepLimit := by omega
      rw [prestep_move hw hlimit]
      exact ih (s := s.setPc w) hmoving hws hbound

/-! ### The STEP check -/

/-- A STEP handler that leaves the same PC, as no change at all, does nothing (60_exceptions.md R320). -/
theorem stepCheck_same {change : Option Word} {s : State} (h : change = none ∨ change = some s.pc) :
    stepCheck change s = s := by
  rcases h with rfl | rfl
  · rfl
  · exact if_pos rfl

/-- A STEP handler that leaves another PC faults (60_exceptions.md R320). -/
theorem stepCheck_other {v : Word} {s : State} (h : v ≠ s.pc) : stepCheck (some v) s = raiseFault .stepPcMutated s := if_neg h

/-! ### The events together -/

theorem Running.no_fault {s : State} : Running s → s.fault = none
  | ⟨_, hfault, _, _⟩ => hfault

theorem unlessFaulted_of_none (f : State → State) {s : State} (h : s.fault = none) : unlessFaulted f s = f s := by
  simp [unlessFaulted, h]

/-- With no registry read, the events of a boundary that can run are the sweeps and, unless these fault, the STEP check. -/
theorem eventsState_of_no_reads {s : State} (hrun : Running s) (hreads : (boundaryInput s).registryReads = []) :
    eventsState s = unlessFaulted (stepCheck (boundaryInput s).stepPcChange)
      (prestep 0 (boundaryInput s).sweeps (takeInput s)) := by
  have hfault : (takeInput s).fault = none := hrun.no_fault
  rw [eventsState, boundaryEvents, hreads, registryReads, unlessFaulted_of_none _ hfault]

/-- Settles O55: the sweeps by `prestep_settles` and `prestep_loop`, then the STEP check at the PC they leave. -/
theorem prestepAndStepEvents : Obligations.PrestepAndStepEvents := by
  intro s ws rest hrun hreads hmoving
  have hevents := eventsState_of_no_reads hrun hreads
  refine ⟨fun hlimit hsweeps => ?_, fun hlimit hne hsweeps => ?_⟩
  · have hfault : ((takeInput s).setPc (lastPc s.pc ws)).fault = none := hrun.no_fault
    rw [prestep_settles (s := takeInput s) hmoving hlimit hsweeps, takeInput_pc, unlessFaulted_of_none _ hfault] at hevents
    refine ⟨fun hsame => ?_, fun v hv hother => step_of_event_fault hrun ?_⟩
    · rw [hevents, stepCheck_same hsame]
      rfl
    · rw [hevents, hv, stepCheck_other hother, raiseFault_fault]
  · have hloop := prestep_loop rest (n := 0) (s := takeInput s) hmoving hne (by simpa using hlimit)
    rw [← hsweeps] at hloop
    rw [unlessFaulted_of_fault hloop] at hevents
    exact step_of_event_fault hrun (hevents ▸ hloop)

/-! ### IRQ -/

/-- A boundary with no reset requested, the line asserted and I clear takes the IRQ entry (60_exceptions.md R312). -/
theorem step_of_irq {s : State} (hrun : Running s) (hfault : (eventsState s).fault = none)
    (hreset : (boundaryInput s).reset = .none) (hline : (boundaryInput s).irqLine = true)
    (hi : (eventsState s).p.i = false) : step s = .next (irqEntry (eventsState s)) := by
  simp [step_of_running hrun hfault, afterEvents, hreset, hline, hi]

/-- The IRQ entry is two reads at PC and the five cycles of an entry with B = 0, then S, I and PC (60_exceptions.md R312). -/
theorem irqEntry_spec (s : State) :
    ∃ d1 d2 es target u, d1.IsRead s.pc ∧ d2.IsRead s.pc ∧ EntryCycles irqVector s.pc (packP false s.p) s.sp es target ∧
      Cycles s (d1 :: d2 :: es) u ∧
      irqEntry s = { u with pc := target, sp := s.sp - 3, p := { s.p with i := true } } := by
  obtain ⟨es, target, u, hentry, hcycles, henter⟩ := enter_spec irqVector s.pc false (afterRead s.pc (afterRead s.pc s))
  simp only [afterRead_sp, afterRead_p] at hentry henter
  exact ⟨_, _, es, target, u, peekEvent_isRead _ _, peekEvent_isRead _ _, hentry, Cycles.read _ (Cycles.read _ hcycles),
    henter⟩

/-- Settles O51: the step is the IRQ entry, and that is the run of `irqEntry_spec`. -/
theorem interruptEntry : Obligations.InterruptEntry := by
  intro s hrun hfault hreset hline hi s1
  obtain ⟨d1, d2, es, target, u, hd1, hd2, hentry, hcycles, hirq⟩ := irqEntry_spec s1
  exact ⟨d1, d2, es, target, u, hd1, hd2, hentry, hcycles,
    (step_of_irq hrun hfault hreset hline hi).trans (congrArg Host.Outcome.next hirq)⟩

end Sys2Proof.Machine
end

section
/-! SUPPORT. The reset sequence as a run of eight reads (`resetSequence_spec`), from which a warm reset (O52), the power-on and a cold
reset (O53) and the vector a launch reaches (O60) follow. -/

namespace Sys2Proof.Machine

/-! ### The reset sequence -/

/-- The switch reset sets TEXT, clears the other general switches and keeps the language card's (70_reset_and_hazards.md
R352). -/
theorem switchReset_get (r : Registry) (f : Switch) :
    r.switchReset.get f = if f.isLanguageCard then r.get f else f == .text := by
  cases f <;> rfl

/-- The reset sequence is eight reads from the state with its switches reset, and then S, I and PC (70_reset_and_hazards.md
R351). -/
theorem resetSequence_eq (s : State) :
    let u3 := afterRead s.pc (afterRead s.pc (afterRead s.pc { s with sw := s.sw.switchReset }))
    let u6 := afterRead (stackAddr (s.sp - 2)) (afterRead (stackAddr (s.sp - 1)) (afterRead (stackAddr s.sp) u3))
    let u7 := afterRead resetVector u6
    resetSequence s = { afterRead (resetVector + 1) u7 with
      sp := s.sp - 3
      p := { s.p with i := true }
      pc := wordOf (readValue (resetVector + 1) u7) (readValue resetVector u6) } := by
  have h3 : s.sp - 2 - 1 = s.sp - 3 := BitVec.sub_sub s.sp 2 1
  simp only [resetSequence, beforeResetVector, jumpThrough, fakePush, dummyRead, memRead, afterRead_setSp, afterRead_setFlags,
    readValue_setSp, readValue_setFlags, setSp_sp, setSp_p, afterRead_sp, afterRead_p, sub_one_sub_one, h3]
  simp only [State.setSp, State.setPc, State.setFlags]

/-- The reset sequence does what a reset is stated to do. -/
theorem resetSequence_spec (s : State) : ResetRun s (resetSequence s) :=
  ⟨_, _, _, _, _, _, _, _, _, _, switchReset_get s.sw, peekEvent_isRead _ _, peekEvent_isRead _ _, peekEvent_isRead _ _,
    peekEvent_isRead _ _, peekEvent_isRead _ _, peekEvent_isRead _ _, peekEvent_isRead _ _, peekEvent_isRead _ _,
    Cycles.read _ (Cycles.read _ (Cycles.read _ (Cycles.read _ (Cycles.read _ (Cycles.read _ (Cycles.read _
      (Cycles.read_one _ _))))))), resetSequence_eq s⟩

/-! ### A warm reset -/

/-- What a reset keeps, writes and counts (70_reset_and_hazards.md R355). -/
theorem ResetRun.frame {s t : State} (h : ResetRun s t) :
    t.a = s.a ∧ t.x = s.x ∧ t.y = s.y ∧ t.p = { s.p with i := true } ∧ t.sp = s.sp - 3 ∧ t.ram = s.ram ∧ t.rom = s.rom ∧
      t.buslog.length = s.buslog.length + 8 ∧ t.cycles = s.cycles + 8 := by
  obtain ⟨sw, d1, d2, d3, k1, k2, k3, r1, r2, u, -, hd1, hd2, hd3, hk1, hk2, hk3, hr1, hr2, hcycles, rfl⟩ := h
  have hreads : ∀ e ∈ [d1, d2, d3, k1, k2, k3, r1, r2], e.type = .peek := by
    simpa using ⟨hd1.1, hd2.1, hd3.1, hk1.1, hk2.1, hk3.1, hr1.1, hr2.1⟩
  exact ⟨hcycles.a_eq, hcycles.x_eq, hcycles.y_eq, rfl, rfl, (hcycles.ram_of_reads hreads).1, hcycles.rom_eq,
    (congrArg List.length hcycles.buslog_eq).trans List.length_append, hcycles.cycles_eq⟩

/-- Settles O52: a warm request runs the reset sequence, whatever the IRQ line and I. -/
theorem warmReset : Obligations.WarmReset := by
  intro s hrun hfault hreset
  refine ⟨resetSequence (eventsState s), ?_, resetSequence_spec _, (resetSequence_spec _).frame⟩
  simp only [step_of_running hrun hfault, afterEvents, hreset]

/-! ### Power-on and cold reset -/

/-- One more cell is one more write, if its offset is inside the size. -/
theorem Memory.ofCells_concat (size : Nat) (cells : List Host.Cell) (c : Host.Cell) :
    Memory.ofCells size (cells ++ [c]) =
      if c.1 < size then (Memory.ofCells size cells).write c.1 c.2 else Memory.ofCells size cells :=
  List.foldl_append

/-- Of two cells for one offset the later one counts. -/
theorem Memory.read_ofCells {size k : Nat} (hk : k < size) (v : Byte) (pre post : List Host.Cell)
    (hpost : ∀ c ∈ post, c.1 ≠ k) : (Memory.ofCells size (pre ++ (k, v) :: post)).read k = v := by
  induction post using List.reverseRecOn with
  | nil => rw [Memory.ofCells_concat, if_pos hk, Memory.read_write _ _ _ (Memory.wf_ofCells _ _), if_pos rfl]
  | append_singleton post c ih =>
    have hc : k ≠ c.1 := (hpost c (by simp)).symm
    have hrest := ih fun c' hc' => hpost c' (List.mem_append_left _ hc')
    rw [← List.cons_append, ← List.append_assoc, Memory.ofCells_concat]
    split
    · rw [Memory.read_write_other hc, hrest]
    · exact hrest

/-- A launch is not refused exactly when both sizes are right (60_exceptions.md R323). -/
theorem launchRefusal_eq_none (cfg : Config) (image : List Byte) :
    launchRefusal cfg image = none ↔ cfg.romImageOk image.length = true ∧ cfg.ramSizeOk = true := by
  unfold launchRefusal
  cases cfg.romImageOk image.length <;> cases cfg.ramSizeOk <;> simp

theorem powerOnSwitches_general (lc : LcPowerOn) : ∀ f : Switch, f.isLanguageCard = false →
    (powerOnSwitches lc).get f = false := by
  intro f
  cases f <;> simp [Switch.isLanguageCard, powerOnSwitches, Registry.get]

section
variable (s : State)

@[simp] theorem eventsState_inputs : (eventsState s).inputs = s.inputs.tail := by rw [eventsState_only]
@[simp] theorem eventsState_ioDraws : (eventsState s).ioDraws = s.ioDraws := by rw [eventsState_only]
@[simp] theorem eventsState_suppressDraws : (eventsState s).suppressDraws = s.suppressDraws := by rw [eventsState_only]

end

/-- A cold reset at a boundary is the reset sequence from a power-on state that holds the environment's draws still to come
(70_reset_and_hazards.md R356; log 11). -/
theorem coldReset_eventsState (draws : PowerOnDraws) (s : State) :
    coldReset draws (eventsState s) = resetSequence { State.atPowerOn s.cfg (eventsState s).rom draws with
      powerOn := false, inputs := s.inputs.tail, ioDraws := s.ioDraws, suppressDraws := s.suppressDraws } := by
  simp only [coldReset, powerOnReset, eventsState_cfg, eventsState_inputs, eventsState_ioDraws, eventsState_suppressDraws]

/-- Settles O53: the launch state field by field, and both its first step and a cold reset by the reset sequence. -/
theorem powerOnAndColdReset : Obligations.PowerOnAndColdReset := by
  refine ⟨fun cfg image d => ?launch, fun s hr hf hp => ⟨_, step_of_powerOn hr hf hp, resetSequence_spec _⟩,
    fun s d hrun hfault hreset => ⟨coldReset d (eventsState s), ?cold, coldReset_eventsState d s ▸ resetSequence_spec _⟩⟩
  case launch =>
    refine ⟨rfl, rfl, rfl, rfl, rfl, rfl, rfl, fun k hk => ?rom, ⟨rfl, rfl, rfl, rfl⟩,
      powerOnSwitches_general cfg.lcPowerOn, fun k v pre post hk hram hpost => ?ram, rfl, rfl, rfl, rfl, rfl,
      launchRefusal_eq_none cfg image⟩
    case rom =>
      have hread := Memory.read_ofImage image 0 k
      rw [if_pos (Nat.zero_le k), Nat.sub_zero, List.getD_eq_getElem _ _ hk] at hread
      rw [List.getElem?_eq_getElem hk, ← hread]
      rfl
    case ram =>
      have hcells : (State.launch cfg image d).ram = Memory.ofCells cfg.ramSize d.ram := rfl
      rw [hcells, hram, Memory.read_ofCells hk v pre post hpost]
  case cold => simp only [step_of_running hrun hfault, afterEvents, hreset]

/-! ### The vector of a launch -/

theorem wordOf_inj {hi lo hi' lo' : Byte} (h : wordOf hi lo = wordOf hi' lo') : hi = hi' ∧ lo = lo' := by
  constructor
  · simpa using congrArg hiByte h
  · simpa using congrArg loByte h

theorem resetSequence_pc (s : State) : (resetSequence s).pc = wordOf (resetVectorBytes s).2 (resetVectorBytes s).1 := rfl

/-- What a read cycle above BANKSW_END is answered by, with ALTZP clear (20_memory.md R58, R66, R67). -/
theorem readValue_high {addr : Word} {s : State} (hhook : s.cfg.isHooked addr = false) (haddr : 0xE000 ≤ addr.toNat)
    (haltzp : s.sw.altzp = false) :
    readValue addr s = if s.cfg.lcPresent && s.sw.lcReadRam then s.ram.read addr.toNat
      else s.rom.read (addr.toNat - (0x10000 - s.cfg.romSize)) := by
  have hroute : routeToRom s.cfg false s.sw = !(s.cfg.lcPresent && s.sw.lcReadRam) := by
    simp [routeToRom]
  rw [readValue_unhooked hhook]
  cases hsel : s.cfg.lcPresent && s.sw.lcReadRam with
  | true => simp [resolve_lcOther haddr (hroute.trans (by rw [hsel]; rfl)), storageByte, physOf, haltzp]
  | false =>
    rw [resolve_rom (Nat.le_trans (by decide) haddr) (hroute.trans (by rw [hsel]; rfl))]
    rfl

/-- With the vector addresses unhooked a reset reads its vector in ROM, or in RAM where LC RAM is selected. -/
theorem resetVectorBytes_unhooked {s : State} (hlo : s.cfg.isHooked 0xFFFC = false) (hhi : s.cfg.isHooked 0xFFFD = false) :
    resetVectorBytes s = if vectorInRam s then (s.ram.read 0xFFFC, s.ram.read 0xFFFD)
      else (s.rom.read (s.cfg.romSize - 4), s.rom.read (s.cfg.romSize - 3)) := by
  obtain ⟨es, hreads, -, hrun⟩ := beforeResetVector_run s
  obtain ⟨haltzp, hselect⟩ := beforeResetVector_select s
  have hcfg : (beforeResetVector s).cfg = s.cfg := hrun.cfg
  have hram : (beforeResetVector s).ram = s.ram := hrun.ram_of_reads hreads
  have hrom : (beforeResetVector s).rom = s.rom := hrun.rom
  have hsw : (afterRead 0xFFFC (beforeResetVector s)).sw = (beforeResetVector s).sw := (afterRead_plain _ (by decide)).1
  have hlow := readValue_high (addr := 0xFFFC) (hcfg ▸ hlo) (by decide) haltzp
  have hhigh := readValue_high (addr := 0xFFFD) (s := afterRead 0xFFFC (beforeResetVector s))
    (by rw [afterRead_cfg, hcfg, hhi]) (by decide) (by rw [hsw, haltzp])
  have h4 : 0xFFFC - (0x10000 - s.cfg.romSize) = s.cfg.romSize - 4 := by rw [romSize_eq]; split <;> rfl
  have h3 : 0xFFFD - (0x10000 - s.cfg.romSize) = s.cfg.romSize - 3 := by rw [romSize_eq]; split <;> rfl
  simp only [afterRead_cfg, afterRead_ram, afterRead_rom, hsw, hcfg, hram, hrom, hselect] at hlow hhigh
  have hbytes : resetVectorBytes s = (readValue 0xFFFC (beforeResetVector s),
    readValue 0xFFFD (afterRead 0xFFFC (beforeResetVector s))) := rfl
  rw [hbytes, hlow, hhigh]
  split
  · rfl
  · exact congrArg₂ Prod.mk (congrArg s.rom.read h4) (congrArg s.rom.read h3)

/-- Settles O60: PC is the word of the two bytes the reset sequence reads last, and these come from where
`resetVectorBytes_unhooked` says. -/
theorem launchReachesTheRomVector : Obligations.LaunchReachesTheRomVector := by
  refine ⟨fun s hclean => ?_, fun s v hlo hhi => ?_⟩
  · obtain ⟨hfault, hrefusal, hcycles, hbuslog, -, hpower⟩ := hclean
    obtain ⟨sw, d1, d2, d3, k1, k2, k3, r1, r2, u, -, -, -, -, -, -, -, hr1, hr2, hrun, ht⟩ :=
      resetSequence_spec { s with powerOn := false }
    have hlog : u.buslog = [d1, d2, d3, k1, k2, k3, r1, r2] := by
      rw [hrun.buslog_eq]
      exact congrArg (· ++ _) hbuslog
    have hcount : u.cycles = 8 := by
      rw [hrun.cycles_eq]
      exact congrArg (· + 8) hcycles
    obtain ⟨hhigh, hlow⟩ := wordOf_inj ((resetSequence_pc _).symm.trans (congrArg State.pc ht))
    refine ⟨_, r1, r2, (step_of_powerOn hrefusal hfault hpower).trans (congrArg _ ht), hcount, by simp [hlog], by simp [hlog],
      by simp [hlog], hr1, hr2, fun v => ⟨?_, fun hv => ?_⟩⟩
    · rw [RomVector, Prod.ext_iff, hlow, hhigh]
    · obtain ⟨h1, h2⟩ := Prod.ext_iff.1 hv
      rw [← hlow, ← hhigh, h1, h2, wordOf_hi_lo]
  · have hbytes := resetVectorBytes_unhooked (s := { s with powerOn := false }) hlo hhi
    have hselect : vectorInRam { s with powerOn := false } = vectorInRam s := rfl
    rw [RomVector, hbytes, hselect]
    split <;> exact Prod.ext_iff

end Sys2Proof.Machine
end
